-- ==== Sys2Proof/Word.lean ====
section
/-! DEFINITION. The word and record types of the drone framer/duty block: bytes, port words, frames, intents and the
four-channel vectors (00_scope.md R7; 10_state.md R34 to R37). Every value is unsigned. -/

namespace Sys2Proof

/-- A byte is 8 bits (00_scope.md R7). -/
abbrev Byte := BitVec 8

/-- One event on an input port is one 40-bit word (30_encoding.md R75). -/
abbrev EventWord := BitVec 40

/-- Six bytes, in link order: position k holds frame byte k (20_memory.md R52; 10_state.md R23, R24, R35). -/
abbrev Frame := Vector Byte 6

/-- Four 16-bit pulse widths in microseconds, the output of MIX (10_state.md R37). -/
abbrev PulseVector := Vector (BitVec 16) 4

/-- Four 16-bit compare values, the MotorDutyVector (10_state.md R36). -/
abbrev DutyVector := Vector (BitVec 16) 4

/-- Four unsigned 8-bit values; every combination is legal (10_state.md R34). -/
structure Intent where
  roll : Byte
  pitch : Byte
  yaw : Byte
  throttle : Byte
  deriving DecidableEq, Repr, Inhabited

/-- A six-element frame from its bytes by position. -/
def frameOf (f : Fin 6 → Byte) : Frame := #v[f 0, f 1, f 2, f 3, f 4, f 5]

/-- One value for each of the four PWM channels. -/
def perChannel {α : Type} (f : Fin 4 → α) : Vector α 4 := #v[f 0, f 1, f 2, f 3]

end Sys2Proof
end

