-- ==== Sys2Proof/Config.lean ====
section
/-! DEFINITION. What is fixed for a whole run: the constants of 00_scope.md R5, the configuration parameters of
00_scope.md R6 (never state: 10_state.md R33; never changed by an event: 00_scope.md R12), and the reset contents the
spec leaves at "any value". -/

namespace Sys2Proof

/-- START_MARKER, 0xAA (00_scope.md R5; 30_encoding.md R71). UNVERIFIED against the firmware, as the spec says: log 15. -/
def marker : Byte := 0xAA

/-- FRAME_LEN (00_scope.md R5). -/
def frameLen : Nat := 6

/-- NCH, the number of PWM channels (00_scope.md R5). -/
def channelCount : Nat := 4

/-- BAUD: informational only, nothing in the model depends on it (00_scope.md R6). -/
def baudBps : Nat := 115200

/-- CHECKSUM: a total function of the frame's bytes 0 to 4 (42_intent.md R155; 90_conflicts.md C2). The block never
evaluates it; the host does. -/
abbrev Checksum := Byte → Byte → Byte → Byte → Byte → Byte

/-- The configuration parameters (00_scope.md R6). `escPeriodUs` is a natural below 2^32 whose default is 2500; zero is
expressible here and is refused at the boundary (43_duty.md R178; Machine/Boundary.lean). -/
structure Config where
  escPeriodUs : Fin 4294967296 := 2500
  maxDuty : Vector (BitVec 16) 4
  mix : Intent → PulseVector
  checksum : Checksum
  intentReset : Intent
  timerHandleInstalled : Bool
  deriving Inhabited

/-- A configuration that has passed the boundary: `ESC_PERIOD_US` is at least 1 (00_scope.md R6; 43_duty.md R178). -/
structure LegalConfig extends Config where
  period_ne_zero : escPeriodUs ≠ 0 := by decide
  deriving Inhabited

/-- The configuration of the machine. It has no body: nothing can be proved of it beyond `period_ne_zero`, so what is
proved of the machine holds for every legal configuration. DESIGN CHOICE, safe: log 3, log 4. -/
opaque Config.board : LegalConfig

/-- The bytes of `buf` at reset: "any value (unspecified)" (70_reset_and_hazards.md R231). Free: no body.
DESIGN CHOICE, safe: log 5. -/
opaque Config.bufAtReset : Fin 6 → Byte

/-- The bytes of `slot` at reset: "any value (unspecified)" (70_reset_and_hazards.md R231). Free: no body.
DESIGN CHOICE, safe: log 5. -/
opaque Config.slotAtReset : Fin 6 → Byte

/-- What the duty registers hold at reset, while they are still unwritten: the spec gives no value
(70_reset_and_hazards.md R231; 92_eei_decisions.md D7). Free: no body. DESIGN CHOICE, safe: log 9. -/
opaque Config.ccrAtReset : Fin 4 → BitVec 16

end Sys2Proof
end

