-- ==== Sys2Proof/Syntax.lean ====
section
/-! DEFINITION. The seven events of the block, one constructor per row of spec/opcode_table.json (30_encoding.md R75),
the agents that issue them (00_scope.md R10), and the lines of the spec's assembler notation (30_encoding.md R82, R83). -/

namespace Sys2Proof

/-- The three agents (00_scope.md R10). -/
inductive Agent where
  /-- The UART receive interrupt. -/
  | rx
  /-- The periodic timer interrupt. -/
  | tmr
  /-- The main loop. -/
  | host
  deriving DecidableEq, Repr

/-- The events. An operand is a whole byte and every byte is legal (30_encoding.md R72, R76; 10_state.md R34), so no
term of this type is ill-formed. -/
inductive Instr where
  /-- RXB: a byte received (40_receiver.md R101). -/
  | rxb (b : Byte)
  /-- RXNONE: the byte source returned "no data" (40_receiver.md R106). -/
  | rxnone
  /-- RXERR: the byte source reported a read error (40_receiver.md R107). -/
  | rxerr
  /-- TAKE: the host's `take_frame` (41_handoff.md R132). -/
  | take
  /-- SETI: the host's `set_intent` (42_intent.md R150). -/
  | seti (roll pitch yaw throttle : Byte)
  /-- GETI: the host's `get_intent` (42_intent.md R151). -/
  | geti
  /-- TICK: one timer period has elapsed (43_duty.md R170). -/
  | tick
  deriving DecidableEq, Repr

/-- The agent that issues an event, fixed by its opcode (30_encoding.md R75, R82). -/
def Instr.agent : Instr → Agent
  | .rxb _ => .rx
  | .rxnone => .rx
  | .rxerr => .rx
  | .take => .host
  | .seti _ _ _ _ => .host
  | .geti => .host
  | .tick => .tmr

/-- One line of the assembler notation, its numbers not yet checked against their fields: the seven events
(30_encoding.md R82) and the three pseudo-instructions (30_encoding.md R83). -/
inductive AsmLine where
  | rx (b : Nat)
  | rxNone
  | rxErr
  | take
  | seti (roll pitch yaw throttle : Nat)
  | geti
  | tick
  | rxs (bytes : List Nat)
  | sendframe (roll pitch yaw throttle checksum : Nat)
  | sendframeChk (roll pitch yaw throttle : Nat)
  deriving DecidableEq, Repr

end Sys2Proof
end

