-- ==== Sys2Proof/WellFormed.lean ====
section
/-! DEFINITION. Well-formedness: of event words, by the match and mask of each row of spec/opcode_table.json
(30_encoding.md R75, R78, R79); of assembler lines, whose numbers must fit their fields (30_encoding.md R82); of
complete frames (10_state.md R35). A term of `Instr` has only whole-byte operands and needs no check. -/

namespace Sys2Proof

/-- A row of spec/opcode_table.json. -/
structure EventRow where
  mnemonic : String
  pattern : EventWord
  mask : EventWord
  agent : Agent
  deriving DecidableEq, Repr

/-- The rows, in the table's order. -/
def eventRows : List EventRow :=
  [ ⟨"RXB", 0x0100000000, 0xFFFFFFFF00, .rx⟩,
    ⟨"RXNONE", 0x0200000000, 0xFFFFFFFFFF, .rx⟩,
    ⟨"RXERR", 0x0300000000, 0xFFFFFFFFFF, .rx⟩,
    ⟨"TAKE", 0x1000000000, 0xFFFFFFFFFF, .host⟩,
    ⟨"SETI", 0x2000000000, 0xFF00000000, .host⟩,
    ⟨"GETI", 0x2100000000, 0xFFFFFFFFFF, .host⟩,
    ⟨"TICK", 0x3000000000, 0xFFFFFFFFFF, .tmr⟩ ]

/-- A word matches a row when its bits under the mask are the row's pattern. -/
def EventRow.covers (r : EventRow) (w : EventWord) : Bool := w &&& r.mask == r.pattern

/-- A word spells an event when some row covers it (30_encoding.md R80). -/
def eventWordWellFormed (w : EventWord) : Bool := eventRows.any fun r => r.covers w

/-- The row of an event's constructor. -/
def Instr.row : Instr → EventRow
  | .rxb _ => ⟨"RXB", 0x0100000000, 0xFFFFFFFF00, .rx⟩
  | .rxnone => ⟨"RXNONE", 0x0200000000, 0xFFFFFFFFFF, .rx⟩
  | .rxerr => ⟨"RXERR", 0x0300000000, 0xFFFFFFFFFF, .rx⟩
  | .take => ⟨"TAKE", 0x1000000000, 0xFFFFFFFFFF, .host⟩
  | .seti _ _ _ _ => ⟨"SETI", 0x2000000000, 0xFF00000000, .host⟩
  | .geti => ⟨"GETI", 0x2100000000, 0xFFFFFFFFFF, .host⟩
  | .tick => ⟨"TICK", 0x3000000000, 0xFFFFFFFFFF, .tmr⟩

/-- A number fits a byte field, 0 to 255 (30_encoding.md R82). -/
def fitsByte (n : Nat) : Bool := n < 256

/-- The numbers of a line fit their fields, and `rxs` has at least one byte (30_encoding.md R82, R83). -/
def AsmLine.wellFormed : AsmLine → Bool
  | .rx b => fitsByte b
  | .rxNone => true
  | .rxErr => true
  | .take => true
  | .seti r p y t => fitsByte r && fitsByte p && fitsByte y && fitsByte t
  | .geti => true
  | .tick => true
  | .rxs bs => !bs.isEmpty && bs.all fitsByte
  | .sendframe r p y t c => fitsByte r && fitsByte p && fitsByte y && fitsByte t && fitsByte c
  | .sendframeChk r p y t => fitsByte r && fitsByte p && fitsByte y && fitsByte t

/-- A frame considered complete has byte 0 equal to the start marker (10_state.md R35). -/
def frameWellFormed (f : Frame) : Bool := f[0] == marker

end Sys2Proof
end

