-- ==== Sys2Proof/Decode.lean ====
section
/-! DEFINITION. Decoding of event words, total over all 2^40 words and refusing by name (30_encoding.md R78 to R81),
the encoder written from the same table (30_encoding.md R75, R76), and the host's table-word reading. -/

namespace Sys2Proof

/-- Why a word spells no event (60_exceptions.md R205). -/
inductive DecodeRefusal where
  /-- RESERVED_OP: the opcode is not in the table (30_encoding.md R78). -/
  | reservedOp
  /-- RESERVED_BITS: a payload bit that must be 0 is 1 (30_encoding.md R79). -/
  | reservedBits
  deriving DecidableEq, Repr

/-- `op`, bits 39:32 of an event word (30_encoding.md R75). -/
def opOf (w : EventWord) : BitVec 8 := w.extractLsb' 32 8

/-- `payload`, bits 31:0 of an event word (30_encoding.md R75). -/
def payloadOf (w : EventWord) : BitVec 32 := w.extractLsb' 0 32

/-- An event word from its two fields, `op` in the more significant bits (30_encoding.md R75). -/
def eventWord (op : BitVec 8) (payload : BitVec 32) : EventWord := op ++ payload

/-- Byte k of a 32-bit port word, at bits [8k+7:8k] (20_memory.md R53). -/
def payloadByte (p : BitVec 32) (k : Nat) : Byte := p.extractLsb' (8 * k) 8

/-- The intent word: throttle, yaw, pitch, roll from the most significant byte down (30_encoding.md R76). -/
def intentWord (i : Intent) : BitVec 32 := i.throttle ++ i.yaw ++ i.pitch ++ i.roll

/-- The intent in an intent word (30_encoding.md R76; 20_memory.md R53). -/
def intentOfWord (w : BitVec 32) : Intent :=
  ⟨payloadByte w 0, payloadByte w 1, payloadByte w 2, payloadByte w 3⟩

/-- An event without operands needs a zero payload (30_encoding.md R79). -/
def withoutOperand (p : BitVec 32) (i : Instr) : Except DecodeRefusal Instr :=
  if p = 0 then .ok i else .error .reservedBits

/-- The byte operand of RXB; payload bits 31:8 must be 0 (30_encoding.md R76, R79). -/
def withByteOperand (p : BitVec 32) : Except DecodeRefusal Instr :=
  if p.extractLsb' 8 24 = 0 then .ok (.rxb (payloadByte p 0)) else .error .reservedBits

/-- The intent operand of SETI; it has no reserved bits (30_encoding.md R76, R79). -/
def withIntentOperand (p : BitVec 32) : Except DecodeRefusal Instr :=
  .ok (.seti (payloadByte p 0) (payloadByte p 1) (payloadByte p 2) (payloadByte p 3))

/-- The decode algorithm (30_encoding.md R81). -/
def decode (w : EventWord) : Except DecodeRefusal Instr :=
  if opOf w = 0x01 then withByteOperand (payloadOf w)
  else if opOf w = 0x02 then withoutOperand (payloadOf w) .rxnone
  else if opOf w = 0x03 then withoutOperand (payloadOf w) .rxerr
  else if opOf w = 0x10 then withoutOperand (payloadOf w) .take
  else if opOf w = 0x20 then withIntentOperand (payloadOf w)
  else if opOf w = 0x21 then withoutOperand (payloadOf w) .geti
  else if opOf w = 0x30 then withoutOperand (payloadOf w) .tick
  else .error .reservedOp

/-- The opcode of an event (30_encoding.md R75). -/
def Instr.opcode : Instr → BitVec 8
  | .rxb _ => 0x01
  | .rxnone => 0x02
  | .rxerr => 0x03
  | .take => 0x10
  | .seti _ _ _ _ => 0x20
  | .geti => 0x21
  | .tick => 0x30

/-- The payload of an event (30_encoding.md R75, R76). -/
def Instr.payload : Instr → BitVec 32
  | .rxb b => b.setWidth 32
  | .rxnone => 0
  | .rxerr => 0
  | .take => 0
  | .seti r p y t => intentWord ⟨r, p, y, t⟩
  | .geti => 0
  | .tick => 0

/-- The event word of an event (30_encoding.md R75). -/
def encode (i : Instr) : EventWord := eventWord i.opcode i.payload

/-- The event word a table word of `nbits` bits stands for: the bits of `w` above `nbits` are 0, and a number that needs
more than 40 bits is no event word. Bit 0 is the least significant bit, as in 00_scope.md R7. DEDUCED: log 13. -/
def tableWord (nbits w : Nat) : Option EventWord :=
  if w % 2 ^ nbits < 2 ^ 40 then some (BitVec.ofNat 40 (w % 2 ^ nbits)) else none

/-- What the decoder reads from a table word; `none` where it refuses. -/
def decodeTableWord (nbits w : Nat) : Option Instr :=
  match tableWord nbits w with
  | none => none
  | some ew =>
    match decode ew with
    | .ok i => some i
    | .error _ => none

end Sys2Proof
end

