-- ==== Sys2Proof/Machine/State.lean ====
section
/-! DEFINITION. The state of the block (10_state.md R20) as plain data, with the model's own two port queues, the
reasons a step can stop, and the state after reset (70_reset_and_hazards.md R231). -/

namespace Sys2Proof.Machine

/-- Why a step stops without a next state. -/
inductive Fault where
  /-- An event was performed while `halted = 1`: it has no step (60_exceptions.md R203). Raised by every event's
  meaning. Safe: the model stops where the hardware stays as it is, without effect and without response. Log 6. -/
  | halted
  deriving DecidableEq, Repr

/-- Why an observation of the duty port gives no value. It is no outcome of an event (60_exceptions.md R200): the machine
goes on. -/
inductive ObservationFault where
  /-- Channel `ch` of the duty registers was observed while unwritten: the spec's own fault (10_state.md R29;
  92_eei_decisions.md D7; 93_implementation_defined.md item 8). Raised by `observeCcr` and `observeDuty` only, never by a
  step. Safe: a value that the spec does not give is not read. Log 9. -/
  | ccrUnwritten (ch : Fin 4)
  deriving DecidableEq, Repr

/-- Why the model gives no meaning (60_exceptions.md R205). A refusal writes no state, and it ends the run, which is
the refusal mark that R205 asks for. Log 7. -/
inductive Refusal where
  /-- An event that has no meaning yet, by its mnemonic. Raised by a refused arm of `exec`; there is none. Safe. -/
  | notModelled (mnemonic : String)
  /-- RESERVED_OP: raised by `step` on a word whose opcode is not in the table (30_encoding.md R78). Safe. -/
  | reservedOp
  /-- RESERVED_BITS: raised by `step` on a word with a 1 in a bit that must be 0 (30_encoding.md R79). Safe. -/
  | reservedBits
  /-- BAD_CONFIG: raised at the boundary, by `acceptConfig` and its users, on ESC_PERIOD_US = 0 (43_duty.md R178). Safe. -/
  | badConfig
  deriving DecidableEq, Repr

/-- The causes a fail-stop records (60_exceptions.md R201). -/
inductive FaultCode where
  /-- No fault has occurred since reset. -/
  | none
  /-- PERIPHERAL_DOUBLE_TAKE (60_exceptions.md R202). -/
  | peripheralDoubleTake
  deriving DecidableEq, Repr

/-- What a port answers (30_encoding.md R77; 60_exceptions.md R217). -/
inductive Output where
  /-- The 49-bit response of a TAKE. -/
  | take (word : BitVec 49)
  /-- The 32-bit response of a GETI. -/
  | geti (word : BitVec 32)
  /-- The 64-bit DUTY word after a TICK that wrote the duty registers. -/
  | duty (word : BitVec 64)
  deriving DecidableEq, Repr

/-- One duty register: the 16 bits it holds, and the spec's mark whether it is still *unwritten* (10_state.md R29). It
holds bits from reset on; while it is unwritten they are a free value, which no observation gives out (log 9). -/
structure DutyReg where
  value : BitVec 16
  written : Bool
  deriving DecidableEq, Repr

/-- The state. The first ten fields are the tuple of 10_state.md R20; `pending` and `outputs` are the model's own. -/
@[ext]
structure State where
  /-- Bytes of the partial frame stored so far; 0 to 5 between transactions (10_state.md R21). -/
  cursor : Fin 6
  /-- The partial buffer (10_state.md R23). -/
  buf : Frame
  /-- The single-slot mailbox (10_state.md R24). -/
  slot : Frame
  /-- ReadyFlag: `slot` holds a frame no TAKE has returned (10_state.md R25). -/
  ready : Bool
  /-- IntentStore (10_state.md R26). -/
  intent : Intent
  /-- The timer handle is still in the shared holder (10_state.md R27). -/
  holderFull : Bool
  /-- The tick handler holds the timer handle (10_state.md R28). -/
  claimed : Bool
  /-- The duty registers (10_state.md R29). -/
  ccr : Vector DutyReg 4
  /-- A fail-stop has occurred (10_state.md R30). -/
  halted : Bool
  /-- The cause of the fail-stop (10_state.md R30). -/
  faultCode : BitVec 8
  /-- The model's own: the event words waiting on the ports, in run order (20_memory.md R61). Log 1. -/
  pending : List EventWord
  /-- The model's own: what the ports have answered, oldest first (60_exceptions.md R217). Log 2. -/
  outputs : List Output
  deriving DecidableEq, Repr

/-- The state after reset under a configuration, `bufAny` and `slotAny` standing for the contents the spec leaves at
"any value" (70_reset_and_hazards.md R231), `ccrAny` for what the unwritten duty registers hold (log 9). No event waits and no port has answered: DESIGN CHOICE, log 1, log 2. -/
def State.resetWith (c : LegalConfig) (bufAny slotAny : Frame) (ccrAny : DutyVector) : State where
  cursor := 0
  buf := bufAny
  slot := slotAny
  ready := false
  intent := c.intentReset
  holderFull := c.timerHandleInstalled
  claimed := false
  ccr := perChannel fun ch => { value := ccrAny[ch], written := false }
  halted := false
  faultCode := 0
  pending := []
  outputs := []

/-- The machine right after reset: the machine's own configuration, free contents in `buf`, `slot` and the unwritten
duty registers (log 3, log 5, log 9). -/
def State.reset : State :=
  State.resetWith Config.board (frameOf Config.bufAtReset) (frameOf Config.slotAtReset)
    (perChannel Config.ccrAtReset)

end Sys2Proof.Machine
end

