-- ==== Sys2Proof/Machine/Operands.lean ====
section
/-! DEFINITION. The operand and port-word forms: frame bytes and the fields they mean (30_encoding.md R72, R73), the
response and output words (30_encoding.md R77), and the observation of the duty and status ports (10_state.md R29;
60_exceptions.md R217). -/

namespace Sys2Proof.Machine

/-- A byte is a marker or a data byte, whatever its position (30_encoding.md R72). -/
def isMarker (b : Byte) : Bool := b == marker

/-- The intent that a frame's bytes 1 to 4 spell, unscaled (30_encoding.md R73). Used by the host. -/
def intentOfFrame (f : Frame) : Intent := ⟨f[1], f[2], f[3], f[4]⟩

/-- The frame word: byte k at bits [8k+7:8k] (20_memory.md R53). -/
def frameWord (f : Frame) : BitVec 48 := f[5] ++ f[4] ++ f[3] ++ f[2] ++ f[1] ++ f[0]

/-- The frame in a frame word (20_memory.md R53). -/
def frameOfWord (w : BitVec 48) : Frame := frameOf fun k => w.extractLsb' (8 * k.val) 8

/-- TAKE's response: bit 48 `valid`, bits 47:0 the frame, or 0 when there is none (30_encoding.md R77). -/
def takeWord : Option Frame → BitVec 49
  | some f => 1#1 ++ frameWord f
  | none => 0

/-- The frame that a TAKE response carries, if its `valid` bit is 1 (30_encoding.md R77). -/
def frameOfTakeWord (w : BitVec 49) : Option Frame :=
  if w.getLsbD 48 then some (frameOfWord (w.extractLsb' 0 48)) else none

/-- The DUTY word: `ccr[ch]` at bits [16ch+15:16ch] (30_encoding.md R77). -/
def dutyWord (d : DutyVector) : BitVec 64 := d[3] ++ d[2] ++ d[1] ++ d[0]

/-- The status word: bit 8 `halted`, bits 7:0 `fault_code` (30_encoding.md R77). -/
def statusWord (s : State) : BitVec 9 := BitVec.ofBool s.halted ++ s.faultCode

/-- An observation of one duty register; of an unwritten one it faults, as the spec says (10_state.md R29;
92_eei_decisions.md D7; 93_implementation_defined.md item 8). -/
def observeCcr (s : State) (ch : Fin 4) : Except ObservationFault (BitVec 16) :=
  if s.ccr[ch].written then .ok s.ccr[ch].value else .error (.ccrUnwritten ch)

/-- An observation of the DUTY port: all four registers, or the fault of the first unwritten one (10_state.md R29). -/
def observeDuty (s : State) : Except ObservationFault (BitVec 64) :=
  match observeCcr s 0, observeCcr s 1, observeCcr s 2, observeCcr s 3 with
  | .ok a, .ok b, .ok c, .ok d => .ok (dutyWord #v[a, b, c, d])
  | .error e, _, _, _ => .error e
  | .ok _, .error e, _, _ => .error e
  | .ok _, .ok _, .error e, _ => .error e
  | .ok _, .ok _, .ok _, .error e => .error e

end Sys2Proof.Machine
end

