-- ==== Sys2Proof/Machine/Flags.lean ====
section
/-! DEFINITION. The flags: `ready` (10_state.md R25) and the fault state `halted`, `fault_code` (10_state.md R30), the
codes of 60_exceptions.md R201, and the derived receive phase (10_state.md R22). There are no condition codes. -/

namespace Sys2Proof.Machine

/-- The code a cause is recorded as (60_exceptions.md R201). -/
def FaultCode.byte : FaultCode → BitVec 8
  | .none => 0
  | .peripheralDoubleTake => 1

/-- Write `ready`; EMIT sets it and TAKE clears it (10_state.md R25). -/
def State.setReady (s : State) (v : Bool) : State := { s with ready := v }

/-- Write the fault state, both registers in one transaction (60_exceptions.md R203). -/
def State.latchFault (s : State) (code : FaultCode) : State := { s with halted := true, faultCode := code.byte }

/-- The two receive phases, no register of their own (10_state.md R22; 90_conflicts.md C3). -/
inductive Phase where
  | seekingStart
  | accumulating
  deriving DecidableEq, Repr

/-- SEEKING_START exactly when `cursor = 0` (10_state.md R22). -/
def State.phase (s : State) : Phase := if s.cursor = 0 then .seekingStart else .accumulating

end Sys2Proof.Machine
end

