-- ==== Sys2Proof/Machine/Ops.lean ====
section
/-! DEFINITION. The shared operations on the state: one write per register, the port answer, the step precondition of
every event, EMIT (41_handoff.md R130), the fail-stop (60_exceptions.md R203) and power-on reset
(70_reset_and_hazards.md R230). There is no return from a fault (60_exceptions.md R210). -/

namespace Sys2Proof.Machine

/-- Write `cursor` (10_state.md R21). -/
def State.setCursor (s : State) (c : Fin 6) : State := { s with cursor := c }

/-- Write one byte of the partial buffer (10_state.md R23). -/
def State.storeBuf (s : State) (k : Fin 6) (b : Byte) : State := { s with buf := s.buf.set k b }

/-- Write all six bytes of the mailbox (10_state.md R24). -/
def State.setSlot (s : State) (f : Frame) : State := { s with slot := f }

/-- Write all four fields of the intent register (20_memory.md R58). -/
def State.setIntent (s : State) (i : Intent) : State := { s with intent := i }

/-- Move the timer handle out of the shared holder (43_duty.md R171). -/
def State.takeHandle (s : State) : State := { s with holderFull := false, claimed := true }

/-- Write all four duty registers; none is unwritten afterwards (43_duty.md R176; 10_state.md R29). -/
def State.setCcr (s : State) (d : DutyVector) : State :=
  { s with ccr := perChannel fun ch => { value := d[ch], written := true } }

/-- Answer on a port (30_encoding.md R77). -/
def State.respond (s : State) (o : Output) : State := { s with outputs := s.outputs ++ [o] }

/-- Take the waiting event words as `ws`. -/
def State.setPending (s : State) (ws : List EventWord) : State := { s with pending := ws }

/-- The step precondition of every event: with `halted = 1` it has no step; otherwise it has its effect
(60_exceptions.md R200, R203). -/
def whenRunning (s : State) (effect : State → State) : Host.Outcome State Fault Refusal :=
  if s.halted then .fault .halted else .next (effect s)

/-- EMIT: `slot` takes `buf` and `ready` is set, as a pair (41_handoff.md R130; 20_memory.md R56). It does not read
`ready`, so an unread frame is overwritten (41_handoff.md R131). -/
def State.emitFrame (s : State) : State := (s.setSlot s.buf).setReady true

/-- The fail-stop: the block halts and the cause is recorded; the raising event does nothing else
(60_exceptions.md R203, R209). -/
def State.raiseFault (s : State) (code : FaultCode) : State := s.latchFault code

/-- Power-on reset: every element of the block takes its reset value at once (70_reset_and_hazards.md R230). It is no
event and no `step` performs it; the port queues are the model's own and stay. -/
def State.powerOn (s : State) (c : LegalConfig) (bufAny slotAny : Frame) (ccrAny : DutyVector) : State :=
  { State.resetWith c bufAny slotAny ccrAny with pending := s.pending, outputs := s.outputs }

/-- The refusal a decoder's refusal becomes in a step (60_exceptions.md R205). -/
def refusalOf : DecodeRefusal → Refusal
  | .reservedOp => .reservedOp
  | .reservedBits => .reservedBits

end Sys2Proof.Machine
end

