-- ==== Sys2Proof/Machine/Duty.lean ====
section
/-! DEFINITION. The PwmDutyEngine: CONVERT and TICK (43_duty.md R170 to R180). -/

namespace Sys2Proof.Machine

/-- CONVERT: exact product, truncating division, then the saturating clamp; `period` is ESC_PERIOD_US, which is at least
1 in every legal configuration (43_duty.md R174, R178). -/
def convert (period : Nat) (pulse maxDuty : BitVec 16) : BitVec 16 :=
  BitVec.ofNat 16 (min (pulse.toNat * maxDuty.toNat / period) maxDuty.toNat)

/-- The MotorDutyVector of an intent: MIX once, then CONVERT per channel, channel ch to register ch
(43_duty.md R173, R174, R176). -/
def motorDuty (c : Config) (i : Intent) : DutyVector :=
  perChannel fun ch => convert c.escPeriodUs.val (c.mix i)[ch] c.maxDuty[ch]

/-- Steps 1 to 3 of TICK: one snapshot of the intent, the four writes, and the DUTY word on the port
(43_duty.md R170, R172, R176; 30_encoding.md R77). -/
def writeDuty (c : Config) (s : State) : State :=
  (s.setCcr (motorDuty c s.intent)).respond (.duty (dutyWord (motorDuty c s.intent)))

/-- TICK's effect: the claim test, then the duty write; a first TICK that finds the holder empty raises the fail-stop
before anything else (43_duty.md R170, R171; 60_exceptions.md R202, R208). -/
def tick (c : Config) (s : State) : State :=
  if s.claimed then writeDuty c s
  else if s.holderFull then writeDuty c s.takeHandle
  else s.raiseFault .peripheralDoubleTake

/-- TICK under the machine's configuration (43_duty.md R170). -/
def execTick (s : State) : Host.Outcome State Fault Refusal := whenRunning s (tick Config.board.toConfig)

end Sys2Proof.Machine
end

