-- ==== Sys2Proof/Machine/Handoff.lean ====
section
/-! DEFINITION. TAKE, the consumer's side of the handoff (41_handoff.md R132). The producer's side, EMIT, is
`State.emitFrame`. -/

namespace Sys2Proof.Machine

/-- The frame a TAKE returns: the slot's while `ready = 1`, none otherwise (41_handoff.md R132). -/
def State.pendingFrame (s : State) : Option Frame := if s.ready then some s.slot else none

/-- TAKE's effect: test and clear `ready`, and respond; `slot` keeps its frame (41_handoff.md R132; 20_memory.md R57).
With `ready = 0` it responds "none" and writes nothing. -/
def takeFrame (s : State) : State := (s.setReady false).respond (.take (takeWord s.pendingFrame))

/-- TAKE (41_handoff.md R132). -/
def execTake (s : State) : Host.Outcome State Fault Refusal := whenRunning s takeFrame

end Sys2Proof.Machine
end

