-- ==== Sys2Proof/Machine/IntentReg.lean ====
section
/-! DEFINITION. The intent register's events SETI and GETI (42_intent.md R150, R151). -/

namespace Sys2Proof.Machine

/-- SETI: all four fields in one transaction, any value (42_intent.md R150). -/
def execSeti (roll pitch yaw throttle : Byte) (s : State) : Host.Outcome State Fault Refusal :=
  whenRunning s fun t => t.setIntent ⟨roll, pitch, yaw, throttle⟩

/-- GETI: responds with the intent word and writes no state of the block (42_intent.md R151). -/
def execGeti (s : State) : Host.Outcome State Fault Refusal :=
  whenRunning s fun t => t.respond (.geti (intentWord t.intent))

end Sys2Proof.Machine
end

