-- ==== Sys2Proof/Machine/Receiver.lean ====
section
/-! DEFINITION. The FrameReceiver events RXB, RXNONE and RXERR (40_receiver.md R100 to R112). -/

namespace Sys2Proof.Machine

/-- Steps 3 and 4 of RXB at position `c`: store, increment, and on the sixth byte hand the frame over and return the
cursor to 0, all in one transaction (40_receiver.md R101, R105). -/
def storeAndAdvance (b : Byte) (c : Fin 6) (s : State) : State :=
  if h : c.val + 1 < 6 then (s.storeBuf c b).setCursor ⟨c.val + 1, h⟩
  else ((s.storeBuf c b).emitFrame).setCursor 0

/-- RXB's effect: steps 1 and 2 choose between discarding the byte and storing it, a marker always at position 0
(40_receiver.md R101). -/
def receiveByte (b : Byte) (s : State) : State :=
  if s.cursor = 0 ∧ isMarker b = false then s
  else storeAndAdvance b (if isMarker b then 0 else s.cursor) s

/-- RXB, a byte received (40_receiver.md R101). -/
def execRxb (b : Byte) (s : State) : Host.Outcome State Fault Refusal := whenRunning s (receiveByte b)

/-- RXNONE, no data: no state is read or written (40_receiver.md R106). -/
def execRxnone (s : State) : Host.Outcome State Fault Refusal := whenRunning s fun t => t

/-- RXERR, a read error: no state is read or written (40_receiver.md R107). -/
def execRxerr (s : State) : Host.Outcome State Fault Refusal := whenRunning s fun t => t

end Sys2Proof.Machine
end

