-- ==== Sys2Proof/Machine/Dispatch.lean ====
section
/-! DEFINITION. One arm per event, each one direct call of its meaning. -/

namespace Sys2Proof.Machine

def exec (i : Instr) (s : State) : Host.Outcome State Fault Refusal :=
  match i with
  | .rxb b => Sys2Proof.Machine.execRxb b s
  | .rxnone => Sys2Proof.Machine.execRxnone s
  | .rxerr => Sys2Proof.Machine.execRxerr s
  | .take => Sys2Proof.Machine.execTake s
  | .seti roll pitch yaw throttle => Sys2Proof.Machine.execSeti roll pitch yaw throttle s
  | .geti => Sys2Proof.Machine.execGeti s
  | .tick => Sys2Proof.Machine.execTick s

end Sys2Proof.Machine
end

