-- ==== Sys2Proof/Machine/Step.lean ====
section
/-! DEFINITION. One step: the next waiting event word is decoded and performed; a reserved word is refused before
anything else (60_exceptions.md R208). -/

namespace Sys2Proof.Machine

/-- Take the first waiting word off the port, decode it alone (10_state.md R32) and perform it. A reserved word is
refused before the halted test (60_exceptions.md R205, R208). With no word waiting nothing changes: DESIGN CHOICE, log 8. -/
def step (s : State) : Host.Outcome State Fault Refusal :=
  match s.pending with
  | [] => .next s
  | w :: rest =>
    match decode w with
    | .error r => .refused (refusalOf r)
    | .ok i => exec i (s.setPending rest)

/-- The event that the table word spells, made the first one waiting on the ports: the next step performs exactly it.
A number of more than 40 bits is no event word and leaves the state as it is. Log 14. -/
def State.withFetchWord (s : State) (nbits w : Nat) : State :=
  match tableWord nbits w with
  | some ew => s.setPending (ew :: s.pending)
  | none => s

end Sys2Proof.Machine
end

