-- ==== Sys2Proof/Machine/Assembler.lean ====
section
/-! DEFINITION. The spec's textual notation for event sequences (30_encoding.md R82) and its pseudo-instructions
(30_encoding.md R83): text of a line, to a line, to events, to event words. -/

namespace Sys2Proof.Machine

/-- Why a line is no line of the notation. -/
inductive AsmError where
  /-- The word the line begins with is none of R82's or R83's. -/
  | unknownMnemonic
  /-- The line has too many or too few operands. -/
  | operandCount
  /-- An operand is not a number. -/
  | notANumber
  /-- A number does not fit its field. -/
  | doesNotFit
  /-- `sendframe.chk` without a CHECKSUM in the configuration (30_encoding.md R83). -/
  | noChecksum
  deriving DecidableEq, Repr

/-- A space or a tab. DESIGN CHOICE: log 12. -/
def isBlank (c : Char) : Bool := c == ' ' || c == '\t'

/-- The text without the blanks at its ends. -/
def trimBlanks (cs : List Char) : List Char := ((cs.dropWhile isBlank).reverse.dropWhile isBlank).reverse

/-- The text before the first `;`, which starts a comment (30_encoding.md R82). -/
def stripComment (cs : List Char) : List Char := cs.takeWhile (· != ';')

/-- Split at every comma; one piece more than there are commas. -/
def splitCommas : List Char → List (List Char)
  | [] => [[]]
  | c :: cs =>
    match splitCommas cs with
    | [] => [[c]]
    | piece :: pieces => if c == ',' then [] :: piece :: pieces else (c :: piece) :: pieces

/-- The value of a digit in a base of at most 16; hexadecimal letters in either case. DESIGN CHOICE: log 12. -/
def digitValue (base : Nat) (c : Char) : Option Nat :=
  let v :=
    if '0' ≤ c ∧ c ≤ '9' then c.toNat - '0'.toNat
    else if 'a' ≤ c ∧ c ≤ 'f' then c.toNat - 'a'.toNat + 10
    else if 'A' ≤ c ∧ c ≤ 'F' then c.toNat - 'A'.toNat + 10
    else 16
  if v < base then some v else none

/-- The digits of a number, most significant first, from the value read so far. -/
def digitsFrom (base : Nat) : Nat → List Char → Option Nat
  | acc, [] => some acc
  | acc, c :: cs =>
    match digitValue base c with
    | some v => digitsFrom base (acc * base + v) cs
    | none => none

/-- A number: decimal, or hexadecimal with a `0x` prefix (30_encoding.md R82). -/
def parseNumber : List Char → Option Nat
  | [] => none
  | ['0', 'x'] => none
  | '0' :: 'x' :: cs => digitsFrom 16 0 cs
  | cs => digitsFrom 10 0 cs

/-- The operands of a line: numbers separated by commas, or none at all (30_encoding.md R82). -/
def parseOperands (cs : List Char) : Option (List Nat) :=
  match trimBlanks cs with
  | [] => some []
  | text => (splitCommas text).mapM fun piece => parseNumber (trimBlanks piece)

/-- A mnemonic with its operands (30_encoding.md R82, R83). -/
def lineOf (mnemonic : List Char) (operands : List Nat) : Except AsmError AsmLine :=
  if mnemonic = "rx".toList then
    match operands with
    | [b] => .ok (.rx b)
    | _ => .error .operandCount
  else if mnemonic = "rx.none".toList then
    match operands with
    | [] => .ok .rxNone
    | _ => .error .operandCount
  else if mnemonic = "rx.err".toList then
    match operands with
    | [] => .ok .rxErr
    | _ => .error .operandCount
  else if mnemonic = "take".toList then
    match operands with
    | [] => .ok .take
    | _ => .error .operandCount
  else if mnemonic = "seti".toList then
    match operands with
    | [r, p, y, t] => .ok (.seti r p y t)
    | _ => .error .operandCount
  else if mnemonic = "geti".toList then
    match operands with
    | [] => .ok .geti
    | _ => .error .operandCount
  else if mnemonic = "tick".toList then
    match operands with
    | [] => .ok .tick
    | _ => .error .operandCount
  else if mnemonic = "rxs".toList then
    match operands with
    | [] => .error .operandCount
    | bs => .ok (.rxs bs)
  else if mnemonic = "sendframe".toList then
    match operands with
    | [r, p, y, t, c] => .ok (.sendframe r p y t c)
    | _ => .error .operandCount
  else if mnemonic = "sendframe.chk".toList then
    match operands with
    | [r, p, y, t] => .ok (.sendframeChk r p y t)
    | _ => .error .operandCount
  else .error .unknownMnemonic

/-- One line of text; a line with only blanks and a comment is no line (30_encoding.md R82). -/
def parseLine (text : List Char) : Except AsmError (Option AsmLine) :=
  match trimBlanks (stripComment text) with
  | [] => .ok none
  | body =>
    match parseOperands (body.dropWhile fun c => !isBlank c) with
    | none => .error .notANumber
    | some operands =>
      match lineOf (body.takeWhile fun c => !isBlank c) operands with
      | .ok line => .ok (some line)
      | .error e => .error e

/-- A byte from a number that fits it. -/
def byteOf (n : Nat) : Byte := BitVec.ofNat 8 n

/-- The RXB events of a byte sequence, in order (30_encoding.md R83). -/
def sendBytes (bs : List Byte) : List Instr := bs.map .rxb

/-- The events of a line whose numbers fit: the event itself, or the pseudo-instruction's expansion
(30_encoding.md R82, R83). -/
def expandFitting (chk : Option Checksum) : AsmLine → Except AsmError (List Instr)
  | .rx b => .ok [.rxb (byteOf b)]
  | .rxNone => .ok [.rxnone]
  | .rxErr => .ok [.rxerr]
  | .take => .ok [.take]
  | .seti r p y t => .ok [.seti (byteOf r) (byteOf p) (byteOf y) (byteOf t)]
  | .geti => .ok [.geti]
  | .tick => .ok [.tick]
  | .rxs bs => .ok (sendBytes (bs.map byteOf))
  | .sendframe r p y t c => .ok (sendBytes [marker, byteOf r, byteOf p, byteOf y, byteOf t, byteOf c])
  | .sendframeChk r p y t =>
    match chk with
    | none => .error .noChecksum
    | some f =>
      .ok (sendBytes [marker, byteOf r, byteOf p, byteOf y, byteOf t,
        f marker (byteOf r) (byteOf p) (byteOf y) (byteOf t)])

/-- The events of a line; a number that does not fit its field is an error (30_encoding.md R82). -/
def expandLine (chk : Option Checksum) (l : AsmLine) : Except AsmError (List Instr) :=
  if l.wellFormed then expandFitting chk l else .error .doesNotFit

/-- The events of a text of one event per line, in run order (30_encoding.md R82). -/
def assemble (chk : Option Checksum) : List (List Char) → Except AsmError (List Instr)
  | [] => .ok []
  | text :: texts =>
    match parseLine text with
    | .error e => .error e
    | .ok none => assemble chk texts
    | .ok (some line) =>
      match expandLine chk line, assemble chk texts with
      | .ok es, .ok rest => .ok (es ++ rest)
      | .error e, _ => .error e
      | .ok _, .error e => .error e

/-- The event words of a text (30_encoding.md R75, R82). -/
def assembleWords (chk : Option Checksum) (texts : List (List Char)) : Except AsmError (List EventWord) :=
  match assemble chk texts with
  | .ok es => .ok (es.map encode)
  | .error e => .error e

end Sys2Proof.Machine
end

