-- ==== Sys2Proof/Machine/Boundary.lean ====
section
/-! DEFINITION. The configuration boundary: a configuration with ESC_PERIOD_US = 0 is refused as BAD_CONFIG before the
block runs (43_duty.md R178; 60_exceptions.md R205), and the block under a given configuration. -/

namespace Sys2Proof.Machine

/-- Admit a configuration, or refuse it as BAD_CONFIG (43_duty.md R178). -/
def acceptConfig (c : Config) : Except Refusal LegalConfig :=
  if h : c.escPeriodUs ≠ 0 then .ok { toConfig := c, period_ne_zero := h } else .error .badConfig

/-- The block's first state under a configuration (70_reset_and_hazards.md R231), if the configuration is admitted. -/
def bootUnder (c : Config) (bufAny slotAny : Frame) (ccrAny : DutyVector) : Host.Outcome State Fault Refusal :=
  match acceptConfig c with
  | .error r => .refused r
  | .ok lc => .next (State.resetWith lc bufAny slotAny ccrAny)

/-- One event under a given configuration: only TICK reads it, and a refused configuration gives no event a meaning
(00_scope.md R6, R9; 43_duty.md R178). -/
def execUnder (c : Config) (i : Instr) (s : State) : Host.Outcome State Fault Refusal :=
  match acceptConfig c with
  | .error r => .refused r
  | .ok lc =>
    match i with
    | .rxb b => execRxb b s
    | .rxnone => execRxnone s
    | .rxerr => execRxerr s
    | .take => execTake s
    | .seti roll pitch yaw throttle => execSeti roll pitch yaw throttle s
    | .geti => execGeti s
    | .tick => whenRunning s (tick lc.toConfig)

end Sys2Proof.Machine
end

