-- ==== Sys2Proof/Machine/HostContract.lean ====
section
/-! DEFINITION. The host's side of the contract, outside the block: the frame validator and the poll procedure
(42_intent.md R154 to R156). The block admits any sequence of host events; this is the one the source's main loop issues. -/

namespace Sys2Proof.Machine

/-- The validator: byte 5 is the checksum of bytes 0 to 4 (42_intent.md R155). -/
def checkCrc (chk : Checksum) (f : Frame) : Bool := chk f[0] f[1] f[2] f[3] f[4] == f[5]

/-- What the host does with a TAKE response: it issues a SETI of the frame's intent when the response is valid and the
checksum holds, and nothing otherwise (42_intent.md R154, R156; 30_encoding.md R73). The diagnostic line is not
modelled (42_intent.md R154). -/
def pollReaction (chk : Checksum) (response : BitVec 49) : Option Intent :=
  match frameOfTakeWord response with
  | none => none
  | some f => if checkCrc chk f then some (intentOfFrame f) else none

/-- One poll with no event between its TAKE and its SETI (42_intent.md R154). The two stay separate events of the block:
a run may perform others between them (70_reset_and_hazards.md R239). -/
def poll (chk : Checksum) (s : State) : Host.Outcome State Fault Refusal :=
  match execTake s with
  | .next t =>
    match pollReaction chk (takeWord s.pendingFrame) with
    | some i => execSeti i.roll i.pitch i.yaw i.throttle t
    | none => .next t
  | .fault f => .fault f
  | .refused r => .refused r

end Sys2Proof.Machine
end

