-- ==== Sys2Proof/Safety.lean ====
section
/-! DEFINITION. The terms claims are stated in: runs of events, what a run received, handed over and answered, the
history the mailbox is compared with, and the invariant of every step. -/

namespace Sys2Proof.Machine

/-- A run of events, in order, up to the first that has no next state (20_memory.md R61; 60_exceptions.md R217). -/
def perform : List Instr → State → Host.Outcome State Fault Refusal
  | [], s => .next s
  | i :: es, s =>
    match exec i s with
    | .next t => perform es t
    | .fault f => .fault f
    | .refused r => .refused r

/-- A run is safe while it has not reached the fail-stop (60_exceptions.md R217). -/
def Unfaulted (s : State) : Prop := s.halted = false

/-- The byte an event delivers to the framer. -/
def receivedByte : Instr → Option Byte
  | .rxb b => some b
  | .rxnone => none
  | .rxerr => none
  | .take => none
  | .seti _ _ _ _ => none
  | .geti => none
  | .tick => none

/-- The bytes of a run's RXB events, in order (40_receiver.md R109). -/
def receivedBytes (es : List Instr) : List Byte := es.filterMap receivedByte

/-- The intent an event commits. -/
def committedIntent : Instr → Option Intent
  | .rxb _ => none
  | .rxnone => none
  | .rxerr => none
  | .take => none
  | .seti roll pitch yaw throttle => some ⟨roll, pitch, yaw, throttle⟩
  | .geti => none
  | .tick => none

/-- The last intent of a run's SETIs, or the one it started with (42_intent.md R152). -/
def lastIntent (es : List Instr) (start : Intent) : Intent := ((es.filterMap committedIntent).getLast?).getD start

/-- The frame that ends at the newest byte of a history kept newest first: a marker and then exactly five data bytes
(40_receiver.md R109). -/
def completedFrame : List Byte → Option Frame
  | b5 :: b4 :: b3 :: b2 :: b1 :: b0 :: _ =>
    if b0 = marker ∧ b1 ≠ marker ∧ b2 ≠ marker ∧ b3 ≠ marker ∧ b4 ≠ marker ∧ b5 ≠ marker then
      some #v[b0, b1, b2, b3, b4, b5]
    else none
  | _ => none

/-- What the TAKEs of a run must return, from the byte history alone (newest first) and a one-place mailbox: a completed
frame replaces the mailbox's, a TAKE empties it (41_handoff.md R131, R133; 40_receiver.md R109). -/
def expectedTakes : List Instr → List Byte → Option Frame → List (Option Frame)
  | [], _, _ => []
  | .rxb b :: es, history, mailbox =>
    expectedTakes es (b :: history) ((completedFrame (b :: history)).or mailbox)
  | .take :: es, history, mailbox => mailbox :: expectedTakes es history none
  | .rxnone :: es, history, mailbox => expectedTakes es history mailbox
  | .rxerr :: es, history, mailbox => expectedTakes es history mailbox
  | .seti _ _ _ _ :: es, history, mailbox => expectedTakes es history mailbox
  | .geti :: es, history, mailbox => expectedTakes es history mailbox
  | .tick :: es, history, mailbox => expectedTakes es history mailbox

/-- The TAKE response an output is, if it is one. -/
def takeResponse : Output → Option (BitVec 49)
  | .take w => some w
  | .geti _ => none
  | .duty _ => none

/-- The TAKE responses among outputs, oldest first. -/
def takeResponses (os : List Output) : List (BitVec 49) := os.filterMap takeResponse

/-- The frame handed over by EMIT in an event at a state: the sixth byte of a frame arrives (40_receiver.md R101, R130). -/
def handedOver (i : Instr) (s : State) : Option Frame :=
  match i with
  | .rxb b => if s.cursor = 5 ∧ b ≠ marker then some (s.buf.set 5 b) else none
  | .rxnone => none
  | .rxerr => none
  | .take => none
  | .seti _ _ _ _ => none
  | .geti => none
  | .tick => none

/-- The frames handed over along a run, in order. -/
def handedOverIn : List Instr → State → List Frame
  | [], _ => []
  | i :: es, s =>
    match exec i s with
    | .next t => (handedOver i s).toList ++ handedOverIn es t
    | .fault _ => []
    | .refused _ => []

/-- The TICK that can write the duty registers: the handle is claimed or still in its holder (43_duty.md R171). -/
abbrev canClaim (s : State) : Prop := s.claimed = true ∨ s.holderFull = true

/-- A frame of the link: byte 0 a marker, bytes 1 to 5 data bytes (40_receiver.md R108, R110). -/
abbrev LinkFrame (f : Frame) : Prop := f[0] = marker ∧ ∀ k : Fin 6, k ≠ 0 → f[k] ≠ marker

/-- The invariant of the block between transactions. -/
structure Inv (s : State) : Prop where
  /-- A partial frame begins with a marker (40_receiver.md R108). -/
  partial_marker : s.cursor ≠ 0 → s.buf[0] = marker
  /-- The bytes of a partial frame after its marker are data bytes (40_receiver.md R108). -/
  partial_data : ∀ k : Fin 6, k ≠ 0 → k < s.cursor → s.buf[k] ≠ marker
  /-- A frame that TAKE can return is a frame of the link (10_state.md R35; 40_receiver.md R108). -/
  slot_frame : s.ready = true → LinkFrame s.slot
  /-- A claimed handle has left the holder (43_duty.md R180). -/
  claimed_empties : s.claimed = true → s.holderFull = false
  /-- The duty registers are written exactly once the handle is claimed (10_state.md R29; 60_exceptions.md R203). -/
  ccr_written : ∀ ch : Fin 4, s.ccr[ch].written = s.claimed
  /-- Every duty value written is at most its channel's maximum (10_state.md R29). -/
  ccr_bounded : ∀ ch : Fin 4, s.ccr[ch].written = true → s.ccr[ch].value ≤ Config.board.maxDuty[ch]
  /-- Without a fail-stop no fault is recorded (10_state.md R30; 60_exceptions.md R201). -/
  running_code : s.halted = false → s.faultCode = 0
  /-- A fail-stop is the first TICK's, with the holder empty and nothing claimed (60_exceptions.md R202, R203). -/
  halted_cause : s.halted = true → s.faultCode = 1 ∧ s.claimed = false ∧ s.holderFull = false

end Sys2Proof.Machine
end

