-- ==== Sys2Proof/Certificates/Slice0/Obligations.lean ====
section
/-! DEFINITION. The statements for the provers, from the numbered rules of spec/. Equations of the form
`exec i s = .next t` say that the event completes, what it writes, and that nothing else changes. -/

open Sys2Proof Sys2Proof.Machine Host

/-! ### Reset -/

/-- 70_reset_and_hazards.md R231: the reset value of every element, under every legal configuration and with any contents
of `buf` and `slot`; every duty register is unwritten, so that an observation of it faults (10_state.md R29). The
machine's own reset state is one of these. The rule marks these values as the spec's own derivations and decisions (D6,
D7, D14, D15, D24, D26). That an unwritten register holds bits, `ccrAny`, any at all, is the model's (log 9). -/
def Obligations.ResetGivesEveryElementItsValue : Prop :=
  (∀ (c : LegalConfig) (bufAny slotAny : Frame) (ccrAny : DutyVector),
    let s := State.resetWith c bufAny slotAny ccrAny
    s.cursor = 0 ∧ s.phase = .seekingStart ∧ s.buf = bufAny ∧ s.slot = slotAny ∧ s.ready = false ∧
    s.intent = c.intentReset ∧ s.holderFull = c.timerHandleInstalled ∧ s.claimed = false ∧
    (∀ ch : Fin 4, s.ccr[ch].written = false ∧ s.ccr[ch].value = ccrAny[ch] ∧
      observeCcr s ch = .error (.ccrUnwritten ch)) ∧ s.halted = false ∧ s.faultCode = 0) ∧
  ∃ (bufAny slotAny : Frame) (ccrAny : DutyVector), State.reset = State.resetWith Config.board bufAny slotAny ccrAny

/-- 70_reset_and_hazards.md R230 and 60_exceptions.md R203: power-on reset puts every element at its reset value whatever
the state was, the halted state included, and every event then has a next state again. The port queues are the model's
own fields and stay (log 1, log 2, log 17). Where the handle is not installed, TICK's next state is the fail-stop, which
is a next state by the model's reading (log 6, DEDUCED; D15). The reset is the spec's own decision D24. -/
def Obligations.PowerOnRestoresResetAndRuns : Prop :=
  ∀ (s : State) (c : LegalConfig) (bufAny slotAny : Frame) (ccrAny : DutyVector),
    { s.powerOn c bufAny slotAny ccrAny with pending := [], outputs := [] } =
      State.resetWith c bufAny slotAny ccrAny ∧
    (s.powerOn c bufAny slotAny ccrAny).pending = s.pending ∧ (s.powerOn c bufAny slotAny ccrAny).outputs = s.outputs ∧
    ∀ i : Instr, ∃ t, exec i (s.powerOn c bufAny slotAny ccrAny) = .next t

/-! ### Words and decoding -/

/-- 30_encoding.md R84: the rule's own example words, both ways, and its two TAKE responses. The encoding is the spec's own
(D2, D3), and the rule is marked derived. -/
def Obligations.ExampleWordsAsInR84 : Prop :=
  decode 0x01000000AA = .ok (.rxb 0xAA) ∧ encode (.rxb 0xAA) = 0x01000000AA ∧
  decode 0x0100000006 = .ok (.rxb 0x06) ∧ encode (.rxb 0x06) = 0x0100000006 ∧
  decode 0x0200000000 = .ok .rxnone ∧ encode .rxnone = 0x0200000000 ∧
  decode 0x0300000000 = .ok .rxerr ∧ encode .rxerr = 0x0300000000 ∧
  decode 0x1000000000 = .ok .take ∧ encode .take = 0x1000000000 ∧
  decode 0x2040302010 = .ok (.seti 0x10 0x20 0x30 0x40) ∧ encode (.seti 0x10 0x20 0x30 0x40) = 0x2040302010 ∧
  decode 0x2100000000 = .ok .geti ∧ encode .geti = 0x2100000000 ∧
  decode 0x3000000000 = .ok .tick ∧ encode .tick = 0x3000000000 ∧
  takeWord (some #v[0xAA, 0x02, 0x03, 0x04, 0x05, 0x06]) = 0x10605040302AA ∧
  takeWord none = 0x0000000000000

/-- 30_encoding.md R75, R76, R81: decoding an event's word gives the event back, with every operand at every value.
The encoding is the spec's own (D2, D3, D17). -/
def Obligations.DecodeInvertsEncode : Prop :=
  ∀ i : Instr, decode (encode i) = .ok i

/-- 30_encoding.md R75, R79, R81: no two words spell one event; a decoded word is the event's own word. The
encoding is the spec's own (D2, D3, D17). -/
def Obligations.EncodeInvertsDecode : Prop :=
  ∀ (w : EventWord) (i : Instr), decode w = .ok i → encode i = w

/-- 30_encoding.md R80: every one of the 2^40 words is one of the seven events or one of the two refusals, and it is an
event exactly when a row of the opcode table covers it, namely that event's row. The rule is marked derived. -/
def Obligations.EveryWordIsAnEventOrARefusal : Prop :=
  ∀ w : EventWord,
    ((∃ i, decode w = .ok i ∧ i.row ∈ eventRows ∧ i.row.covers w = true) ∨
      decode w = .error .reservedOp ∨ decode w = .error .reservedBits) ∧
    ((∃ i, decode w = .ok i) ↔ eventWordWellFormed w = true)

/-- 30_encoding.md R75: the rows of the opcode table do not overlap, so a word spells at most one event. The encoding is
the spec's own (D2). -/
def Obligations.TableRowsDoNotOverlap : Prop :=
  ∀ (w : EventWord) (r r' : EventRow), r ∈ eventRows → r' ∈ eventRows →
    r.covers w = true → r'.covers w = true → r = r'

/-- 30_encoding.md R78, R79: a reserved opcode is refused as RESERVED_OP, a 1 in a must-be-0 payload bit as RESERVED_BITS,
in every state, halted or not; SETI has no reserved bits. The refusal is the spec's own decision D17. -/
def Obligations.ReservedWordsRefusedByReason : Prop :=
  ∀ (s : State) (w : EventWord) (rest : List EventWord), s.pending = w :: rest →
    ((opOf w ≠ 0x01 ∧ opOf w ≠ 0x02 ∧ opOf w ≠ 0x03 ∧ opOf w ≠ 0x10 ∧ opOf w ≠ 0x20 ∧ opOf w ≠ 0x21 ∧ opOf w ≠ 0x30) →
      step s = .refused .reservedOp) ∧
    (opOf w = 0x01 → (payloadOf w).extractLsb' 8 24 ≠ 0 → step s = .refused .reservedBits) ∧
    ((opOf w = 0x02 ∨ opOf w = 0x03 ∨ opOf w = 0x10 ∨ opOf w = 0x21 ∨ opOf w = 0x30) → payloadOf w ≠ 0 →
      step s = .refused .reservedBits) ∧
    (opOf w = 0x20 → ∃ r p y t, decode w = .ok (.seti r p y t))

/-- 30_encoding.md R77: bit 48 of a TAKE response is `valid` and byte k of the frame stands at [8k+7:8k], the response is
all 0 when there is none; an intent word has the layout of R76; `ccr[ch]` stands at [16ch+15:16ch]; the status word is
`halted` over `fault_code`. The layouts are the spec's own (D3). -/
def Obligations.PortWordsHaveTheirLayout : Prop :=
  (∀ (f : Frame) (k : Fin 6),
    (takeWord (some f)).getLsbD 48 = true ∧ (takeWord (some f)).extractLsb' (8 * k.val) 8 = f[k]) ∧
  takeWord none = 0 ∧
  (∀ i : Intent, (intentWord i).extractLsb' 0 8 = i.roll ∧ (intentWord i).extractLsb' 8 8 = i.pitch ∧
    (intentWord i).extractLsb' 16 8 = i.yaw ∧ (intentWord i).extractLsb' 24 8 = i.throttle) ∧
  (∀ (d : DutyVector) (ch : Fin 4), (dutyWord d).extractLsb' (16 * ch.val) 16 = d[ch]) ∧
  (∀ s : State, (statusWord s).getLsbD 8 = s.halted ∧ (statusWord s).extractLsb' 0 8 = s.faultCode)

/-- 20_memory.md R53, 30_encoding.md R77: what the host reads from a TAKE response is the frame the block packed (layout: D3). -/
def Obligations.TakeResponseReadsBack : Prop :=
  ∀ o : Option Frame, frameOfTakeWord (takeWord o) = o

/-! ### One step -/

/-- 60_exceptions.md R208, 10_state.md R32: a step takes the first waiting word and is `exec` of the event it spells, with
that word gone from the port. The second clause, no word waiting, is the model's choice (log 8), as is the list of
waiting words (log 1). -/
def Obligations.StepPerformsTheDecodedEvent : Prop :=
  (∀ (s : State) (w : EventWord) (rest : List EventWord) (i : Instr),
    s.pending = w :: rest → decode w = .ok i → step s = exec i { s with pending := rest }) ∧
  (∀ s : State, s.pending = [] → step s = .next s)

/-- 20_memory.md R61: stepping through the words of a sequence of events performs those events in that order, each reading
the state the earlier ones left, and stops where they stop. The list of waiting words is the model's choice (log 1; D5). -/
def Obligations.SteppingEncodedEventsPerformsThem : Prop :=
  ∀ (es : List Instr) (s : State),
    Sys2Proof.core.run es.length { s with pending := es.map encode ++ s.pending } = perform es s

/-- 60_exceptions.md R200, 20_memory.md R55: while the block is not halted every event has a next state; it leaves the
waiting words alone and only adds to what the ports have answered. A TICK that cannot claim has R200's outcome "fault
(fail-stop)", its remaining effects not performed (R203): that its entry is a next state is the model's reading (log 6,
DEDUCED; D15), and for such a TICK the statement says no more than that. R55 is marked derived; `pending` and `outputs`
are the model's own fields (log 1, log 2). -/
def Obligations.EveryEventCompletesWhileRunning : Prop :=
  ∀ (i : Instr) (s : State), s.halted = false →
    ∃ t, exec i s = .next t ∧ t.pending = s.pending ∧ s.outputs <+: t.outputs

/-! ### FrameReceiver -/

/-- 40_receiver.md R101: the rows of the rule's table. -/
def Obligations.RxbFollowsTheFiveRows : Prop :=
  ∀ (s : State) (b : Byte), s.halted = false →
    (s.cursor = 0 → b ≠ 0xAA → exec (.rxb b) s = .next s) ∧
    (b = 0xAA → exec (.rxb b) s = .next { s with buf := s.buf.set 0 0xAA, cursor := 1 }) ∧
    (∀ (k : Nat) (h : k + 1 < 6), s.cursor.val = k → k ≠ 0 → b ≠ 0xAA →
      exec (.rxb b) s = .next { s with buf := s.buf.set k b, cursor := ⟨k + 1, h⟩ }) ∧
    (s.cursor = 5 → b ≠ 0xAA →
      exec (.rxb b) s = .next { s with buf := s.buf.set 5 b, slot := s.buf.set 5 b, ready := true, cursor := 0 })

/-- 40_receiver.md R103: data bytes received while seeking have no effect on any state, however many there are. -/
def Obligations.DataBytesWhileSeekingLeaveNoTrace : Prop :=
  ∀ (s : State) (bs : List Byte), s.halted = false → s.cursor = 0 → (∀ b ∈ bs, b ≠ marker) →
    perform (bs.map .rxb) s = .next s

/-- 40_receiver.md R106, R107: a read miss changes no state, and neither does any number of them. -/
def Obligations.ReadMissesChangeNothing : Prop :=
  ∀ s : State, s.halted = false →
    exec .rxnone s = .next s ∧ exec .rxerr s = .next s ∧
    ∀ es : List Instr, (∀ i ∈ es, i = .rxnone ∨ i = .rxerr) → perform es s = .next s

/-- 40_receiver.md R100: the RX events write only `cursor`, `buf`, `slot` and `ready`, and what they write there depends on
nothing else of the state. -/
def Obligations.ReceiverKeepsToItsOwnState : Prop :=
  ∀ (i : Instr) (s t s' t' : State), i.agent = .rx → exec i s = .next t → exec i s' = .next t' →
    t = { s with cursor := t.cursor, buf := t.buf, slot := t.slot, ready := t.ready } ∧
    (s.cursor = s'.cursor → s.buf = s'.buf → s.slot = s'.slot → s.ready = s'.ready →
      t.cursor = t'.cursor ∧ t.buf = t'.buf ∧ t.slot = t'.slot ∧ t.ready = t'.ready)

/-- 40_receiver.md R111: without an RXB, `cursor` and `buf` keep their values across any events of any agent. -/
def Obligations.PartialFrameHasNoTimeout : Prop :=
  ∀ (es : List Instr) (s t : State), receivedBytes es = [] → perform es s = .next t →
    t.cursor = s.cursor ∧ t.buf = s.buf

/-- 40_receiver.md R108: from a state with no partial frame, after any run, a non-zero `cursor` counts the marker and the
data bytes received since it, in order, which `buf` holds; every frame handed over is a marker and five data bytes.
The rule is marked derived. -/
def Obligations.BufferHoldsBytesSinceMarker : Prop :=
  ∀ (es : List Instr) (s t : State), s.cursor = 0 → perform es s = .next t →
    t.cursor.val ≤ 5 ∧
    (t.cursor ≠ 0 → ∃ (before data : List Byte),
      receivedBytes es = before ++ marker :: data ∧ data.length + 1 = t.cursor.val ∧
      (∀ d ∈ data, d ≠ marker) ∧ t.buf.toList.take t.cursor.val = marker :: data) ∧
    ∀ f ∈ handedOverIn es s, LinkFrame f

/-- 40_receiver.md R109: an RXB hands a frame over exactly when the bytes received so far end in a marker and five data
bytes, and the frame is those six bytes; otherwise the mailbox is untouched. The rule is marked derived;
it restates the source's own framing property. -/
def Obligations.FrameEmittedIffMarkerAndFiveData : Prop :=
  ∀ (es : List Instr) (b : Byte) (s t u : State), s.cursor = 0 → perform es s = .next t → exec (.rxb b) t = .next u →
    (∀ (before : List Byte) (d1 d2 d3 d4 d5 : Byte),
      receivedBytes es ++ [b] = before ++ [0xAA, d1, d2, d3, d4, d5] →
      d1 ≠ 0xAA → d2 ≠ 0xAA → d3 ≠ 0xAA → d4 ≠ 0xAA → d5 ≠ 0xAA →
      handedOver (.rxb b) t = some #v[0xAA, d1, d2, d3, d4, d5] ∧
      u.slot = #v[0xAA, d1, d2, d3, d4, d5] ∧ u.ready = true ∧ u.cursor = 0) ∧
    ((¬ ∃ (before : List Byte) (d1 d2 d3 d4 d5 : Byte),
      receivedBytes es ++ [b] = before ++ [0xAA, d1, d2, d3, d4, d5] ∧
      d1 ≠ 0xAA ∧ d2 ≠ 0xAA ∧ d3 ≠ 0xAA ∧ d4 ≠ 0xAA ∧ d5 ≠ 0xAA) →
      handedOver (.rxb b) t = none ∧ u.slot = t.slot ∧ u.ready = t.ready)

/-! ### Handoff -/

/-- 41_handoff.md R131: a completing byte puts the new frame in the mailbox and sets `ready` whatever the mailbox held and
whether it was read, with no other trace. -/
def Obligations.NewFrameOverwritesUnreadOne : Prop :=
  ∀ (s : State) (b : Byte) (old : Frame) (unread : Bool), s.halted = false → s.cursor = 5 → b ≠ marker →
    exec (.rxb b) { s with slot := old, ready := unread } =
      .next { s with buf := s.buf.set 5 b, slot := s.buf.set 5 b, ready := true, cursor := 0 }

/-- 41_handoff.md R132: TAKE returns the mailbox's frame and clears `ready`, or answers none and changes nothing; a second
TAKE right after answers none; under the invariant the frame returned begins with 0xAA. -/
def Obligations.TakeReturnsFrameAndClearsReady : Prop :=
  ∀ s : State, s.halted = false →
    (s.ready = true →
      exec .take s = .next { s with ready := false, outputs := s.outputs ++ [.take (1#1 ++ frameWord s.slot)] } ∧
      perform [.take, .take] s =
        .next { s with ready := false, outputs := s.outputs ++ [.take (1#1 ++ frameWord s.slot), .take 0] } ∧
      (Inv s → s.slot[0] = 0xAA)) ∧
    (s.ready = false → exec .take s = .next { s with outputs := s.outputs ++ [.take 0] })

/-- 41_handoff.md R133: from a state with no partial frame and nothing unread, the TAKEs of any run answer exactly what the
received bytes and a one-place mailbox that a completed frame overwrites and a TAKE empties say. The rule is marked
derived; the list of answers is the model's field `outputs` (log 2). -/
def Obligations.TakesMatchOnePlaceMailbox : Prop :=
  ∀ (es : List Instr) (s t : State), s.cursor = 0 → s.ready = false → perform es s = .next t →
    takeResponses t.outputs = takeResponses s.outputs ++ (expectedTakes es [] none).map takeWord

/-- 41_handoff.md R133, 20_memory.md R62: a frame that was handed over is what the first TAKE returns when no other frame is
handed over before it, whatever else happens between. Both rules are marked derived. -/
def Obligations.FirstTakeReturnsTheFrame : Prop :=
  ∀ (s t u : State) (b : Byte) (es : List Instr), s.cursor = 5 → b ≠ marker → exec (.rxb b) s = .next t →
    perform es t = .next u → handedOverIn es t = [] → Instr.take ∉ es → u.halted = false →
    exec .take u =
      .next { u with ready := false, outputs := u.outputs ++ [.take (takeWord (some (s.buf.set 5 b)))] }

/-! ### Intent register -/

/-- 42_intent.md R150: SETI writes all four fields and nothing else; of two in a row the second stays. -/
def Obligations.SetiWritesTheIntent : Prop :=
  ∀ (s : State) (r p y t r' p' y' t' : Byte), s.halted = false →
    exec (.seti r p y t) s = .next { s with intent := ⟨r, p, y, t⟩ } ∧
    perform [.seti r p y t, .seti r' p' y' t'] s = .next { s with intent := ⟨r', p', y', t'⟩ }

/-- 42_intent.md R151: GETI answers the intent word and writes no state; before any SETI it answers INTENT_RESET. -/
def Obligations.GetiAnswersTheIntent : Prop :=
  (∀ s : State, s.halted = false →
    exec .geti s =
      .next { s with outputs := s.outputs ++ [.geti (s.intent.throttle ++ s.intent.yaw ++ s.intent.pitch ++ s.intent.roll)] }) ∧
  ∀ (c : LegalConfig) (bufAny slotAny : Frame) (ccrAny : DutyVector), ∃ t,
    exec .geti (State.resetWith c bufAny slotAny ccrAny) = .next t ∧ t.outputs = [.geti (intentWord c.intentReset)]

/-- 42_intent.md R152: after any run the intent a GETI answers and a TICK uses is the last SETI's, or the starting one when
there was none; from reset that is INTENT_RESET (D6). The rule is marked derived. -/
def Obligations.ReadersSeeTheLastSeti : Prop :=
  State.reset.intent = Config.board.intentReset ∧
  ∀ (es : List Instr) (s t : State), perform es s = .next t →
    t.intent = lastIntent es s.intent ∧
    (t.halted = false →
      exec .geti t = .next { t with outputs := t.outputs ++ [.geti (intentWord (lastIntent es s.intent))] } ∧
      (canClaim t → ∃ u, exec .tick t = .next u ∧
        ∀ ch : Fin 4, u.ccr[ch] = ⟨(motorDuty Config.board.toConfig (lastIntent es s.intent))[ch], true⟩))

/-! ### Duty engine -/

/-- 43_duty.md R174: the exact product, the truncating division and the saturating clamp, with nothing lost to a width.
The 16-bit width of `pulse` and the bound on the product are the spec's own decision D8 (log 11, DEDUCED). -/
def Obligations.ConvertIsExact : Prop :=
  ∀ (period : Nat) (pulse maxDuty : BitVec 16), 1 ≤ period →
    (convert period pulse maxDuty).toNat = min (pulse.toNat * maxDuty.toNat / period) maxDuty.toNat ∧
    pulse.toNat * maxDuty.toNat < 2 ^ 32

/-- 43_duty.md R175: the five properties of CONVERT, which the spec marks as derived from R174. -/
def Obligations.ConvertHasItsFiveProperties : Prop :=
  ∀ (period : Nat) (pulse pulse' maxDuty : BitVec 16), 1 ≤ period →
    convert period pulse maxDuty ≤ maxDuty ∧
    (period ≤ pulse.toNat → convert period pulse maxDuty = maxDuty) ∧
    (pulse.toNat < period → (convert period pulse maxDuty).toNat = pulse.toNat * maxDuty.toNat / period) ∧
    (convert period 0 maxDuty = 0 ∧ convert period pulse 0 = 0) ∧
    (pulse ≤ pulse' → convert period pulse maxDuty ≤ convert period pulse' maxDuty)

/-- 43_duty.md R170, R176: TICK claims the handle on its first success, reads the intent once, and writes
CONVERT(MIX(intent)[ch], MAX_DUTY[ch]) to every `ccr[ch]`; a first TICK with the holder empty fail-stops and writes
nothing else. The holder's two bits are the spec's own decision D14, the halt and its code D15 and D16. That the
fail-stop is a next state is the model's reading (log 6, DEDUCED), and the record of the DUTY words is its field
`outputs` (log 2): a TICK that fail-stops adds none. -/
def Obligations.TickClaimsThenWritesEveryChannel : Prop :=
  ∀ s : State, s.halted = false →
    let c := Config.board.toConfig
    let d : DutyVector := perChannel fun ch => convert c.escPeriodUs.val (c.mix s.intent)[ch] c.maxDuty[ch]
    let written : Vector DutyReg 4 := perChannel fun ch => ⟨d[ch], true⟩
    let answered := s.outputs ++ [.duty (d[3] ++ d[2] ++ d[1] ++ d[0])]
    (s.claimed = true → exec .tick s = .next { s with ccr := written, outputs := answered }) ∧
    (s.claimed = false → s.holderFull = true →
      exec .tick s = .next { s with holderFull := false, claimed := true, ccr := written, outputs := answered }) ∧
    (s.claimed = false → s.holderFull = false →
      exec .tick s = .next { s with halted := true, faultCode := 1 })

/-- 43_duty.md R177: what a TICK writes depends on the intent alone (and the configuration), on no other state. -/
def Obligations.TickHasNoMemoryAcrossPeriods : Prop :=
  ∀ s s' t t' : State, s.intent = s'.intent → canClaim s → canClaim s' →
    exec .tick s = .next t → exec .tick s' = .next t' → t.ccr = t'.ccr

/-- 43_duty.md R180: a TICK that does not fail-stop leaves the handle claimed and the holder empty, and then no number of
further steps changes that or halts the block. The rule is marked derived; the holder's two bits are D14. -/
def Obligations.ClaimedHandleStaysClaimed : Prop :=
  (∀ s t : State, Inv s → exec .tick s = .next t → t.halted = false → t.claimed = true ∧ t.holderFull = false) ∧
  ∀ (n : Nat) (s t : State), Inv s → s.claimed = true → Sys2Proof.core.run n s = .next t →
    t.claimed = true ∧ t.holderFull = false ∧ t.halted = false ∧ t.faultCode = 0

/-- 10_state.md R29: an unwritten duty register faults when observed, a written one gives its value; after a TICK that did
not fail-stop every register is observable, is at most its maximum, and the port has answered the same word.
"Unwritten" is the spec's own decision D7 (log 9); the recorded answers are the model's field `outputs` (log 2). -/
def Obligations.DutyPortObservableAfterTick : Prop :=
  (∀ (s : State) (ch : Fin 4),
    (s.ccr[ch].written = false → observeCcr s ch = .error (.ccrUnwritten ch)) ∧
    (s.ccr[ch].written = true → observeCcr s ch = .ok s.ccr[ch].value)) ∧
  ∀ s t : State, exec .tick s = .next t → t.halted = false →
    (∀ ch : Fin 4, ∃ v, observeCcr t ch = .ok v ∧ v ≤ Config.board.maxDuty[ch]) ∧
    ∃ w, observeDuty t = .ok w ∧ t.outputs = s.outputs ++ [.duty w]

/-- 70_reset_and_hazards.md R241: with no SETI the intent keeps its value and the duty values it gave stay, however many
TICKs and bytes come. -/
def Obligations.NoFailsafeCutsTheOutputs : Prop :=
  ∀ (es : List Instr) (s t : State), es.filterMap committedIntent = [] → perform es s = .next t →
    t.intent = s.intent ∧
    (s.claimed = true → s.ccr = (perChannel fun ch => ⟨(motorDuty Config.board.toConfig s.intent)[ch], true⟩) →
      t.ccr = s.ccr)

/-! ### Fail-stop -/

/-- 60_exceptions.md R203: the fail-stop of the first TICK without a handle records its cause and nothing else, and from
then on no event of any agent has a step, on `exec` and on `step`. The scope of the halt and the code are the spec's own
decisions D15 and D16; "no step" is the outcome `fault halted` (log 6). -/
def Obligations.FailStopHaltsEveryAgent : Prop :=
  ∀ s : State, s.halted = false → s.claimed = false → s.holderFull = false →
    ∃ t, exec .tick s = .next t ∧ t = { s with halted := true, faultCode := 1 } ∧
      (∀ i : Instr, exec i t = .fault .halted) ∧
      ∀ (i : Instr) (w : EventWord) (rest : List EventWord), decode w = .ok i →
        step { t with pending := w :: rest } = .fault .halted

/-- 60_exceptions.md R208: a reserved word is refused before the halted test; then a halted block has no step; only a TICK
can raise the fault, and the one that does writes no `ccr`, `claimed` or `holder_full`. The order is the spec's own
decision D15; "no step" is the outcome `fault halted`, and the fail-stop is a next state (log 6, DEDUCED). -/
def Obligations.RefusalThenHaltThenClaim : Prop :=
  (∀ (s : State) (w : EventWord) (rest : List EventWord) (r : DecodeRefusal),
    s.pending = w :: rest → decode w = .error r → step s = .refused (refusalOf r)) ∧
  (∀ (s : State) (i : Instr), s.halted = true → exec i s = .fault .halted) ∧
  (∀ (s t : State) (i : Instr), exec i s = .next t → t.halted ≠ s.halted →
    i = .tick ∧ t.ccr = s.ccr ∧ t.claimed = s.claimed ∧ t.holderFull = s.holderFull ∧ t.outputs = s.outputs)

/-- 60_exceptions.md R204: none of the conditions of the rule's table writes the fault state; only a TICK that cannot claim
does. -/
def Obligations.OnlyUnclaimableTickWritesFaultState : Prop :=
  ∀ (s t : State) (i : Instr), exec i s = .next t → (i ≠ .tick ∨ canClaim s) →
    t.halted = s.halted ∧ t.faultCode = s.faultCode

/-- 60_exceptions.md R210: no run leaves the halted state; the only next state of a halted block is itself. The rule is
marked derived; that a step with no word waiting has a next state is the model's choice (log 8). -/
def Obligations.HaltedBlockNeverRunsAgain : Prop :=
  ∀ (n : Nat) (s t : State), s.halted = true → Sys2Proof.core.run n s = .next t → t = s

/-! ### Whole machine -/

/-- 10_state.md R20, R31: each element is written only by its owner; `ready` is only set by RX and only cleared by HOST. -/
def Obligations.ElementsWrittenOnlyByTheirOwner : Prop :=
  ∀ (i : Instr) (s t : State), exec i s = .next t →
    (i.agent ≠ .rx → t.cursor = s.cursor ∧ t.buf = s.buf ∧ t.slot = s.slot) ∧
    (i.agent = .rx → s.ready = true → t.ready = true) ∧
    (i.agent = .host → t.ready = true → s.ready = true) ∧
    (i.agent = .tmr → t.ready = s.ready) ∧
    (i.agent ≠ .host → t.intent = s.intent) ∧
    (i.agent ≠ .tmr → t.holderFull = s.holderFull ∧ t.claimed = s.claimed ∧ t.ccr = s.ccr ∧
      t.halted = s.halted ∧ t.faultCode = s.faultCode)

/-- 60_exceptions.md R212: RX and TMR share nothing, so an RX event and a TICK that can claim give the same state in either
order. A consequence of the state each agent owns, not a sentence of the rule. -/
def Obligations.ReceiverAndTickCommute : Prop :=
  ∀ (s : State) (i : Instr), i.agent = .rx → canClaim s → perform [i, .tick] s = perform [.tick, i] s

/-- The invariant holds at reset (40_receiver.md R108, 10_state.md R29, R30, R35, 43_duty.md R180). At reset the
fields it speaks of have R231's values (D7, D15, D26). -/
def Obligations.InvariantHoldsAtReset : Prop := Inv State.reset

/-- Every step keeps the invariant, from every state that has it. -/
def Obligations.EveryStepKeepsTheInvariant : Prop :=
  ∀ s t : State, Inv s → step s = .next t → Inv t

/-! ### Boundary, host and notation -/

/-- 43_duty.md R178: a configuration with ESC_PERIOD_US = 0 is refused at the boundary, neither booted nor given an event;
every other one is booted. The refusal is the spec's own decision D9; where the boundary stands is log 4. -/
def Obligations.ZeroPeriodIsRefusedAtTheBoundary : Prop :=
  ∀ (c : Config) (bufAny slotAny : Frame) (ccrAny : DutyVector),
    (c.escPeriodUs = 0 → bootUnder c bufAny slotAny ccrAny = .refused .badConfig ∧
      ∀ (i : Instr) (s : State), execUnder c i s = .refused .badConfig) ∧
    (c.escPeriodUs ≠ 0 → ∃ s, bootUnder c bufAny slotAny ccrAny = .next s ∧ s.intent = c.intentReset ∧
      s.holderFull = c.timerHandleInstalled)

/-- 00_scope.md R6: the machine is the block under its own configuration, which the boundary admits (log 3, log 4). -/
def Obligations.MachineIsTheBlockUnderItsConfig : Prop :=
  ∀ (i : Instr) (s : State), execUnder Config.board.toConfig i s = exec i s

/-- 42_intent.md R156: on a checksum failure the frame is discarded and the intent unchanged; on a pass the frame's fields
become the intent; with nothing pending nothing happens. One poll with no event between its TAKE and SETI (R154). -/
def Obligations.PollCommitsOnlyCheckedFrames : Prop :=
  ∀ (s : State) (chk : Checksum), s.halted = false →
    (s.ready = true → chk s.slot[0] s.slot[1] s.slot[2] s.slot[3] s.slot[4] ≠ s.slot[5] →
      poll chk s = .next { s with ready := false, outputs := s.outputs ++ [.take (takeWord (some s.slot))] }) ∧
    (s.ready = true → chk s.slot[0] s.slot[1] s.slot[2] s.slot[3] s.slot[4] = s.slot[5] →
      poll chk s =
        .next { s with
          ready := false
          intent := ⟨s.slot[1], s.slot[2], s.slot[3], s.slot[4]⟩
          outputs := s.outputs ++ [.take (takeWord (some s.slot))] }) ∧
    (s.ready = false → poll chk s = .next { s with outputs := s.outputs ++ [.take 0] })

/-- 42_intent.md R157, for any four data bytes: the six bytes of a frame with its checksum, arriving among any other events,
then a poll before another frame is handed over, commit the intent; every later TICK before another SETI writes
CONVERT(MIX(intent)[ch], MAX_DUTY[ch]) to every channel. `chk` is any CHECKSUM. The rule is marked derived; `poll` is
one poll with no event between its TAKE and its SETI (log 10). -/
def Obligations.ReceivedFrameReachesTheDutyRegisters : Prop :=
  ∀ (chk : Checksum) (r p y th c : Byte) (es1 es2 : List Instr) (s t u : State),
    r ≠ 0xAA → p ≠ 0xAA → y ≠ 0xAA → th ≠ 0xAA → c = chk 0xAA r p y th → c ≠ 0xAA →
    receivedBytes es1 = [0xAA, r, p, y, th] → perform (es1 ++ [.rxb c]) s = .next t →
    perform es2 t = .next u → handedOverIn es2 t = [] → Instr.take ∉ es2 → u.halted = false →
    ∃ v, poll chk u = .next v ∧ v.intent = ⟨r, p, y, th⟩ ∧
      ∀ (es3 : List Instr) (w : State), es3.filterMap committedIntent = [] → perform es3 v = .next w →
        w.halted = false → canClaim w →
        ∃ x, exec .tick w = .next x ∧ ∀ ch : Fin 4, x.ccr[ch] =
          ⟨convert Config.board.escPeriodUs.val (Config.board.mix ⟨r, p, y, th⟩)[ch] Config.board.maxDuty[ch], true⟩

/-- 30_encoding.md R83: the expansions of the three pseudo-instructions, for numbers that fit a byte; `sendframe.chk` is
defined only when the configuration supplies a CHECKSUM. The notation is the spec's own (D18). -/
def Obligations.PseudoInstructionsExpand : Prop :=
  (∀ (chk : Option Checksum) (bs : List Nat), bs ≠ [] → (∀ b ∈ bs, b < 256) →
    expandLine chk (.rxs bs) = .ok (bs.map fun b => .rxb (BitVec.ofNat 8 b))) ∧
  ∀ (chk : Option Checksum) (f : Checksum) (r p y t c : Nat), r < 256 → p < 256 → y < 256 → t < 256 → c < 256 →
    expandLine chk (.sendframe r p y t c) = expandLine chk (.rxs [0xAA, r, p, y, t, c]) ∧
    expandLine (some f) (.sendframeChk r p y t) = expandLine (some f) (.sendframe r p y t
      (f 0xAA (BitVec.ofNat 8 r) (BitVec.ofNat 8 p) (BitVec.ofNat 8 y) (BitVec.ofNat 8 t)).toNat) ∧
    expandLine none (.sendframeChk r p y t) = .error .noChecksum
end

