-- ==== Sys2Proof/Laws/Boundary.lean ====
section
/-! SUPPORT. What the configuration boundary answers (43_duty.md R178). -/

namespace Sys2Proof.Machine

theorem acceptConfig_zero {c : Config} (h : c.escPeriodUs = 0) : acceptConfig c = .error .badConfig := by simp [acceptConfig, h]

theorem acceptConfig_legal (c : LegalConfig) : acceptConfig c.toConfig = .ok c := by
  rw [acceptConfig, dif_pos c.period_ne_zero]

theorem acceptConfig_ok {c : Config} {l : LegalConfig} (h : acceptConfig c = .ok l) : l.toConfig = c := by
  unfold acceptConfig at h
  split at h
  · cases h; rfl
  · cases h

end Sys2Proof.Machine
end

