-- ==== Sys2Proof/Laws/Decode.lean ====
section
/-! SUPPORT. The two fields of an event word and the four bytes of an intent word (30_encoding.md R75, R76). -/

namespace Sys2Proof

/-- The bits of an event word are those of its two fields (30_encoding.md R75). -/
theorem eventWord_getLsbD (op : BitVec 8) (p : BitVec 32) (k : Nat) :
    (eventWord op p).getLsbD k = if k < 32 then p.getLsbD k else op.getLsbD (k - 32) := by
  rw [← BitVec.getLsbD_append]; rfl

@[simp] theorem opOf_eventWord (op : BitVec 8) (p : BitVec 32) : opOf (eventWord op p) = op := by
  apply BitVec.eq_of_getLsbD_eq
  intro k hk
  simp [opOf, eventWord_getLsbD, hk]

@[simp] theorem payloadOf_eventWord (op : BitVec 8) (p : BitVec 32) : payloadOf (eventWord op p) = p := by
  apply BitVec.eq_of_getLsbD_eq
  intro k hk
  simp [payloadOf, eventWord_getLsbD, hk]

/-- The bits of an intent word are those of its four bytes, roll lowest (30_encoding.md R76). -/
theorem intentWord_getLsbD (i : Intent) (k : Nat) :
    (intentWord i).getLsbD k =
      if k < 8 then i.roll.getLsbD k
      else if k < 16 then i.pitch.getLsbD (k - 8)
      else if k < 24 then i.yaw.getLsbD (k - 16)
      else i.throttle.getLsbD (k - 24) := by
  have h : (intentWord i).getLsbD k =
      BitVec.getLsbD (w := 8 + 8 + 8 + 8) (i.throttle ++ i.yaw ++ i.pitch ++ i.roll) k := rfl
  have h1 : (k - 8 < 8) = (k < 16) := propext (by omega)
  have h2 : (k - 16 < 8) = (k < 24) := propext (by omega)
  rw [h, BitVec.getLsbD_append, BitVec.getLsbD_append, BitVec.getLsbD_append]
  simp only [Nat.sub_sub, Nat.reduceAdd, h1, h2]

end Sys2Proof
end

