-- ==== Sys2Proof/Laws/State.lean ====
section
/-! SUPPORT. One lemma per field per update of State, each true by rfl, so that no later proof unfolds a record update. -/

namespace Sys2Proof.Machine

variable (s : State)

/-! setCursor -/

@[simp] theorem State.setCursor_cursor (c : Fin 6) : (s.setCursor c).cursor = c := rfl
@[simp] theorem State.setCursor_buf (c : Fin 6) : (s.setCursor c).buf = s.buf := rfl
@[simp] theorem State.setCursor_slot (c : Fin 6) : (s.setCursor c).slot = s.slot := rfl
@[simp] theorem State.setCursor_ready (c : Fin 6) : (s.setCursor c).ready = s.ready := rfl
@[simp] theorem State.setCursor_intent (c : Fin 6) : (s.setCursor c).intent = s.intent := rfl
@[simp] theorem State.setCursor_holderFull (c : Fin 6) : (s.setCursor c).holderFull = s.holderFull := rfl
@[simp] theorem State.setCursor_claimed (c : Fin 6) : (s.setCursor c).claimed = s.claimed := rfl
@[simp] theorem State.setCursor_ccr (c : Fin 6) : (s.setCursor c).ccr = s.ccr := rfl
@[simp] theorem State.setCursor_halted (c : Fin 6) : (s.setCursor c).halted = s.halted := rfl
@[simp] theorem State.setCursor_faultCode (c : Fin 6) : (s.setCursor c).faultCode = s.faultCode := rfl
@[simp] theorem State.setCursor_pending (c : Fin 6) : (s.setCursor c).pending = s.pending := rfl
@[simp] theorem State.setCursor_outputs (c : Fin 6) : (s.setCursor c).outputs = s.outputs := rfl

/-! storeBuf -/

@[simp] theorem State.storeBuf_cursor (k : Fin 6) (b : Byte) : (s.storeBuf k b).cursor = s.cursor := rfl
@[simp] theorem State.storeBuf_buf (k : Fin 6) (b : Byte) : (s.storeBuf k b).buf = s.buf.set k b := rfl
@[simp] theorem State.storeBuf_slot (k : Fin 6) (b : Byte) : (s.storeBuf k b).slot = s.slot := rfl
@[simp] theorem State.storeBuf_ready (k : Fin 6) (b : Byte) : (s.storeBuf k b).ready = s.ready := rfl
@[simp] theorem State.storeBuf_intent (k : Fin 6) (b : Byte) : (s.storeBuf k b).intent = s.intent := rfl
@[simp] theorem State.storeBuf_holderFull (k : Fin 6) (b : Byte) : (s.storeBuf k b).holderFull = s.holderFull := rfl
@[simp] theorem State.storeBuf_claimed (k : Fin 6) (b : Byte) : (s.storeBuf k b).claimed = s.claimed := rfl
@[simp] theorem State.storeBuf_ccr (k : Fin 6) (b : Byte) : (s.storeBuf k b).ccr = s.ccr := rfl
@[simp] theorem State.storeBuf_halted (k : Fin 6) (b : Byte) : (s.storeBuf k b).halted = s.halted := rfl
@[simp] theorem State.storeBuf_faultCode (k : Fin 6) (b : Byte) : (s.storeBuf k b).faultCode = s.faultCode := rfl
@[simp] theorem State.storeBuf_pending (k : Fin 6) (b : Byte) : (s.storeBuf k b).pending = s.pending := rfl
@[simp] theorem State.storeBuf_outputs (k : Fin 6) (b : Byte) : (s.storeBuf k b).outputs = s.outputs := rfl

/-! setSlot -/

@[simp] theorem State.setSlot_cursor (f : Frame) : (s.setSlot f).cursor = s.cursor := rfl
@[simp] theorem State.setSlot_buf (f : Frame) : (s.setSlot f).buf = s.buf := rfl
@[simp] theorem State.setSlot_slot (f : Frame) : (s.setSlot f).slot = f := rfl
@[simp] theorem State.setSlot_ready (f : Frame) : (s.setSlot f).ready = s.ready := rfl
@[simp] theorem State.setSlot_intent (f : Frame) : (s.setSlot f).intent = s.intent := rfl
@[simp] theorem State.setSlot_holderFull (f : Frame) : (s.setSlot f).holderFull = s.holderFull := rfl
@[simp] theorem State.setSlot_claimed (f : Frame) : (s.setSlot f).claimed = s.claimed := rfl
@[simp] theorem State.setSlot_ccr (f : Frame) : (s.setSlot f).ccr = s.ccr := rfl
@[simp] theorem State.setSlot_halted (f : Frame) : (s.setSlot f).halted = s.halted := rfl
@[simp] theorem State.setSlot_faultCode (f : Frame) : (s.setSlot f).faultCode = s.faultCode := rfl
@[simp] theorem State.setSlot_pending (f : Frame) : (s.setSlot f).pending = s.pending := rfl
@[simp] theorem State.setSlot_outputs (f : Frame) : (s.setSlot f).outputs = s.outputs := rfl

/-! setReady -/

@[simp] theorem State.setReady_cursor (v : Bool) : (s.setReady v).cursor = s.cursor := rfl
@[simp] theorem State.setReady_buf (v : Bool) : (s.setReady v).buf = s.buf := rfl
@[simp] theorem State.setReady_slot (v : Bool) : (s.setReady v).slot = s.slot := rfl
@[simp] theorem State.setReady_ready (v : Bool) : (s.setReady v).ready = v := rfl
@[simp] theorem State.setReady_intent (v : Bool) : (s.setReady v).intent = s.intent := rfl
@[simp] theorem State.setReady_holderFull (v : Bool) : (s.setReady v).holderFull = s.holderFull := rfl
@[simp] theorem State.setReady_claimed (v : Bool) : (s.setReady v).claimed = s.claimed := rfl
@[simp] theorem State.setReady_ccr (v : Bool) : (s.setReady v).ccr = s.ccr := rfl
@[simp] theorem State.setReady_halted (v : Bool) : (s.setReady v).halted = s.halted := rfl
@[simp] theorem State.setReady_faultCode (v : Bool) : (s.setReady v).faultCode = s.faultCode := rfl
@[simp] theorem State.setReady_pending (v : Bool) : (s.setReady v).pending = s.pending := rfl
@[simp] theorem State.setReady_outputs (v : Bool) : (s.setReady v).outputs = s.outputs := rfl

/-! setIntent -/

@[simp] theorem State.setIntent_cursor (i : Intent) : (s.setIntent i).cursor = s.cursor := rfl
@[simp] theorem State.setIntent_buf (i : Intent) : (s.setIntent i).buf = s.buf := rfl
@[simp] theorem State.setIntent_slot (i : Intent) : (s.setIntent i).slot = s.slot := rfl
@[simp] theorem State.setIntent_ready (i : Intent) : (s.setIntent i).ready = s.ready := rfl
@[simp] theorem State.setIntent_intent (i : Intent) : (s.setIntent i).intent = i := rfl
@[simp] theorem State.setIntent_holderFull (i : Intent) : (s.setIntent i).holderFull = s.holderFull := rfl
@[simp] theorem State.setIntent_claimed (i : Intent) : (s.setIntent i).claimed = s.claimed := rfl
@[simp] theorem State.setIntent_ccr (i : Intent) : (s.setIntent i).ccr = s.ccr := rfl
@[simp] theorem State.setIntent_halted (i : Intent) : (s.setIntent i).halted = s.halted := rfl
@[simp] theorem State.setIntent_faultCode (i : Intent) : (s.setIntent i).faultCode = s.faultCode := rfl
@[simp] theorem State.setIntent_pending (i : Intent) : (s.setIntent i).pending = s.pending := rfl
@[simp] theorem State.setIntent_outputs (i : Intent) : (s.setIntent i).outputs = s.outputs := rfl

/-! takeHandle -/

@[simp] theorem State.takeHandle_cursor : (s.takeHandle).cursor = s.cursor := rfl
@[simp] theorem State.takeHandle_buf : (s.takeHandle).buf = s.buf := rfl
@[simp] theorem State.takeHandle_slot : (s.takeHandle).slot = s.slot := rfl
@[simp] theorem State.takeHandle_ready : (s.takeHandle).ready = s.ready := rfl
@[simp] theorem State.takeHandle_intent : (s.takeHandle).intent = s.intent := rfl
@[simp] theorem State.takeHandle_holderFull : (s.takeHandle).holderFull = false := rfl
@[simp] theorem State.takeHandle_claimed : (s.takeHandle).claimed = true := rfl
@[simp] theorem State.takeHandle_ccr : (s.takeHandle).ccr = s.ccr := rfl
@[simp] theorem State.takeHandle_halted : (s.takeHandle).halted = s.halted := rfl
@[simp] theorem State.takeHandle_faultCode : (s.takeHandle).faultCode = s.faultCode := rfl
@[simp] theorem State.takeHandle_pending : (s.takeHandle).pending = s.pending := rfl
@[simp] theorem State.takeHandle_outputs : (s.takeHandle).outputs = s.outputs := rfl

/-! setCcr -/

@[simp] theorem State.setCcr_cursor (d : DutyVector) : (s.setCcr d).cursor = s.cursor := rfl
@[simp] theorem State.setCcr_buf (d : DutyVector) : (s.setCcr d).buf = s.buf := rfl
@[simp] theorem State.setCcr_slot (d : DutyVector) : (s.setCcr d).slot = s.slot := rfl
@[simp] theorem State.setCcr_ready (d : DutyVector) : (s.setCcr d).ready = s.ready := rfl
@[simp] theorem State.setCcr_intent (d : DutyVector) : (s.setCcr d).intent = s.intent := rfl
@[simp] theorem State.setCcr_holderFull (d : DutyVector) : (s.setCcr d).holderFull = s.holderFull := rfl
@[simp] theorem State.setCcr_claimed (d : DutyVector) : (s.setCcr d).claimed = s.claimed := rfl
@[simp] theorem State.setCcr_ccr (d : DutyVector) : (s.setCcr d).ccr = (perChannel fun ch => { value := d[ch], written := true }) := rfl
@[simp] theorem State.setCcr_halted (d : DutyVector) : (s.setCcr d).halted = s.halted := rfl
@[simp] theorem State.setCcr_faultCode (d : DutyVector) : (s.setCcr d).faultCode = s.faultCode := rfl
@[simp] theorem State.setCcr_pending (d : DutyVector) : (s.setCcr d).pending = s.pending := rfl
@[simp] theorem State.setCcr_outputs (d : DutyVector) : (s.setCcr d).outputs = s.outputs := rfl

/-! latchFault -/

@[simp] theorem State.latchFault_cursor (c : FaultCode) : (s.latchFault c).cursor = s.cursor := rfl
@[simp] theorem State.latchFault_buf (c : FaultCode) : (s.latchFault c).buf = s.buf := rfl
@[simp] theorem State.latchFault_slot (c : FaultCode) : (s.latchFault c).slot = s.slot := rfl
@[simp] theorem State.latchFault_ready (c : FaultCode) : (s.latchFault c).ready = s.ready := rfl
@[simp] theorem State.latchFault_intent (c : FaultCode) : (s.latchFault c).intent = s.intent := rfl
@[simp] theorem State.latchFault_holderFull (c : FaultCode) : (s.latchFault c).holderFull = s.holderFull := rfl
@[simp] theorem State.latchFault_claimed (c : FaultCode) : (s.latchFault c).claimed = s.claimed := rfl
@[simp] theorem State.latchFault_ccr (c : FaultCode) : (s.latchFault c).ccr = s.ccr := rfl
@[simp] theorem State.latchFault_halted (c : FaultCode) : (s.latchFault c).halted = true := rfl
@[simp] theorem State.latchFault_faultCode (c : FaultCode) : (s.latchFault c).faultCode = c.byte := rfl
@[simp] theorem State.latchFault_pending (c : FaultCode) : (s.latchFault c).pending = s.pending := rfl
@[simp] theorem State.latchFault_outputs (c : FaultCode) : (s.latchFault c).outputs = s.outputs := rfl

/-! respond -/

@[simp] theorem State.respond_cursor (o : Output) : (s.respond o).cursor = s.cursor := rfl
@[simp] theorem State.respond_buf (o : Output) : (s.respond o).buf = s.buf := rfl
@[simp] theorem State.respond_slot (o : Output) : (s.respond o).slot = s.slot := rfl
@[simp] theorem State.respond_ready (o : Output) : (s.respond o).ready = s.ready := rfl
@[simp] theorem State.respond_intent (o : Output) : (s.respond o).intent = s.intent := rfl
@[simp] theorem State.respond_holderFull (o : Output) : (s.respond o).holderFull = s.holderFull := rfl
@[simp] theorem State.respond_claimed (o : Output) : (s.respond o).claimed = s.claimed := rfl
@[simp] theorem State.respond_ccr (o : Output) : (s.respond o).ccr = s.ccr := rfl
@[simp] theorem State.respond_halted (o : Output) : (s.respond o).halted = s.halted := rfl
@[simp] theorem State.respond_faultCode (o : Output) : (s.respond o).faultCode = s.faultCode := rfl
@[simp] theorem State.respond_pending (o : Output) : (s.respond o).pending = s.pending := rfl
@[simp] theorem State.respond_outputs (o : Output) : (s.respond o).outputs = s.outputs ++ [o] := rfl

/-! setPending -/

@[simp] theorem State.setPending_cursor (ws : List EventWord) : (s.setPending ws).cursor = s.cursor := rfl
@[simp] theorem State.setPending_buf (ws : List EventWord) : (s.setPending ws).buf = s.buf := rfl
@[simp] theorem State.setPending_slot (ws : List EventWord) : (s.setPending ws).slot = s.slot := rfl
@[simp] theorem State.setPending_ready (ws : List EventWord) : (s.setPending ws).ready = s.ready := rfl
@[simp] theorem State.setPending_intent (ws : List EventWord) : (s.setPending ws).intent = s.intent := rfl
@[simp] theorem State.setPending_holderFull (ws : List EventWord) : (s.setPending ws).holderFull = s.holderFull := rfl
@[simp] theorem State.setPending_claimed (ws : List EventWord) : (s.setPending ws).claimed = s.claimed := rfl
@[simp] theorem State.setPending_ccr (ws : List EventWord) : (s.setPending ws).ccr = s.ccr := rfl
@[simp] theorem State.setPending_halted (ws : List EventWord) : (s.setPending ws).halted = s.halted := rfl
@[simp] theorem State.setPending_faultCode (ws : List EventWord) : (s.setPending ws).faultCode = s.faultCode := rfl
@[simp] theorem State.setPending_pending (ws : List EventWord) : (s.setPending ws).pending = ws := rfl
@[simp] theorem State.setPending_outputs (ws : List EventWord) : (s.setPending ws).outputs = s.outputs := rfl

end Sys2Proof.Machine
end

