-- ==== Sys2Proof/Laws/Ops.lean ====
section
/-! SUPPORT. One spec lemma for each shared operation: what it can answer and what it leaves. -/

namespace Sys2Proof.Machine

/-! The step precondition -/

theorem whenRunning_running {s : State} (h : s.halted = false) (f : State → State) :
    whenRunning s f = .next (f s) := by simp [whenRunning, h]

theorem whenRunning_halted {s : State} (h : s.halted = true) (f : State → State) :
    whenRunning s f = .fault .halted := by simp [whenRunning, h]

/-- Everything the step precondition can do when it answers a next state. -/
theorem whenRunning_eq_next {s t : State} {f : State → State} (h : whenRunning s f = .next t) :
    s.halted = false ∧ t = f s := by
  cases hs : s.halted
  · rw [whenRunning_running hs] at h
    exact ⟨rfl, (Host.Outcome.next.inj h).symm⟩
  · rw [whenRunning_halted hs] at h
    cases h

/-! The observation of a duty register -/

theorem observeCcr_written {s : State} {ch : Fin 4} (h : s.ccr[ch].written = true) :
    observeCcr s ch = .ok s.ccr[ch].value := if_pos h

theorem observeCcr_unwritten {s : State} {ch : Fin 4} (h : s.ccr[ch].written = false) :
    observeCcr s ch = .error (.ccrUnwritten ch) := if_neg (by rw [h]; decide)

/-! EMIT, the fail-stop and power-on reset -/

/-- EMIT writes `slot` and `ready` and nothing else. -/
theorem State.emitFrame_eq (s : State) : s.emitFrame = { s with slot := s.buf, ready := true } := rfl

/-- The fail-stop writes the fault state and nothing else. -/
theorem State.raiseFault_eq (s : State) (c : FaultCode) :
    s.raiseFault c = { s with halted := true, faultCode := c.byte } := rfl

/-- Power-on reset leaves nothing of the block's old state but the model's own port queues. -/
theorem State.powerOn_eq (s : State) (c : LegalConfig) (b f : Frame) (d : DutyVector) :
    s.powerOn c b f d = { State.resetWith c b f d with pending := s.pending, outputs := s.outputs } := rfl

end Sys2Proof.Machine

namespace Sys2Proof

/-- Reading a channel of a four-channel value. -/
@[simp] theorem perChannel_get {α : Type} (f : Fin 4 → α) (ch : Fin 4) : (perChannel f)[ch] = f ch := by
  fin_cases ch <;> rfl

/-- Reading a position of a frame. -/
@[simp] theorem frameOf_get (f : Fin 6 → Byte) (k : Fin 6) : (frameOf f)[k] = f k := by
  fin_cases k <;> rfl

end Sys2Proof
end

