-- ==== Sys2Proof/Laws/Duty.lean ====
section
/-! SUPPORT. What a TICK can do to the state, and the channels of the duty vector. -/

namespace Sys2Proof.Machine

/-- The duty value of one channel (43_duty.md R176). -/
@[simp] theorem motorDuty_get (c : Config) (i : Intent) (ch : Fin 4) :
    (motorDuty c i)[ch] = convert c.escPeriodUs.val (c.mix i)[ch] c.maxDuty[ch] := perChannel_get _ ch

/-- The three outcomes of a TICK: claimed before, claimed now, fail-stop (43_duty.md R171). -/
theorem tick_cases (c : Config) (s : State) :
    (s.claimed = true ∧ tick c s = writeDuty c s) ∨
    (s.claimed = false ∧ s.holderFull = true ∧ tick c s = writeDuty c s.takeHandle) ∨
    (s.claimed = false ∧ s.holderFull = false ∧ tick c s = s.raiseFault .peripheralDoubleTake) := by
  cases hc : s.claimed
  · cases hh : s.holderFull
    · exact .inr (.inr ⟨rfl, rfl, by simp [tick, hc, hh]⟩)
    · exact .inr (.inl ⟨rfl, rfl, by simp [tick, hc, hh]⟩)
  · exact .inl ⟨rfl, by simp [tick, hc]⟩

/-- The duty write changes the duty registers and answers the DUTY word, nothing else (43_duty.md R170). -/
theorem writeDuty_eq (c : Config) (s : State) :
    writeDuty c s =
      { s with
        ccr := perChannel fun ch => { value := (motorDuty c s.intent)[ch], written := true }
        outputs := s.outputs ++ [.duty (dutyWord (motorDuty c s.intent))] } := rfl

end Sys2Proof.Machine
end

