-- ==== Sys2Proof/Laws/PerInstr.lean ====
section
/-! SUPPORT. For every event: its encoding is covered by its own row of the opcode table (30_encoding.md R75, R79). One
lemma per constructor. -/

namespace Sys2Proof.Laws.EncodingFitsRow

/-- The event's word has its row's pattern under its row's mask. -/
def Statement (i : Instr) : Prop := i.row.covers (encode i) = true

theorem rxb (b : Byte) : Statement (.rxb b) := by
  revert b; unfold Statement; decide

theorem rxnone : Statement .rxnone := by unfold Statement; decide

theorem rxerr : Statement .rxerr := by unfold Statement; decide

theorem take : Statement .take := by unfold Statement; decide

theorem seti (roll pitch yaw throttle : Byte) : Statement (.seti roll pitch yaw throttle) := by
  simp only [Statement, EventRow.covers, Instr.row, encode, Instr.opcode, beq_iff_eq]
  apply BitVec.eq_of_getLsbD_eq
  intro k hk
  rw [BitVec.getLsbD_and, eventWord_getLsbD]
  interval_cases k <;> simp

theorem geti : Statement .geti := by unfold Statement; decide

theorem tick : Statement .tick := by unfold Statement; decide

end Sys2Proof.Laws.EncodingFitsRow
end

