-- ==== Sys2Proof/Laws/Receiver.lean ====
section
/-! SUPPORT. What a received byte can do to the state: discard, start or resynchronise, advance, complete. -/

namespace Sys2Proof.Machine

@[simp] theorem isMarker_eq_true {b : Byte} : isMarker b = true ↔ b = marker := by simp [isMarker]

@[simp] theorem isMarker_eq_false {b : Byte} : isMarker b = false ↔ b ≠ marker := by
  rw [← Bool.not_eq_true, isMarker_eq_true]

theorem receiveByte_discard {b : Byte} {s : State} (hc : s.cursor = 0) (hb : b ≠ marker) : receiveByte b s = s := by
  rw [receiveByte, if_pos ⟨hc, isMarker_eq_false.mpr hb⟩]

theorem receiveByte_marker (s : State) : receiveByte marker s = (s.storeBuf 0 marker).setCursor 1 := by
  have hm : isMarker marker = true := by decide
  rw [receiveByte, if_neg (by simp [hm]), if_pos hm, storeAndAdvance, dif_pos (by decide)]
  rfl

theorem receiveByte_advance {b : Byte} {s : State} (hc : s.cursor ≠ 0) (hb : b ≠ marker) (h : s.cursor.val + 1 < 6) :
    receiveByte b s = (s.storeBuf s.cursor b).setCursor ⟨s.cursor.val + 1, h⟩ := by
  rw [receiveByte, if_neg (fun hd => hc hd.1), if_neg (by simpa using hb), storeAndAdvance, dif_pos h]

theorem receiveByte_complete {b : Byte} {s : State} (hc : s.cursor = 5) (hb : b ≠ marker) :
    receiveByte b s = ((s.storeBuf 5 b).emitFrame).setCursor 0 := by
  rw [receiveByte, if_neg (by simp [hc]), if_neg (by simpa using hb), hc]
  rfl

/-- The five rows of the rule's table (40_receiver.md R101), start and resynchronise in one. -/
theorem receiveByte_cases (b : Byte) (s : State) :
    (s.cursor = 0 ∧ b ≠ marker ∧ receiveByte b s = s) ∨
    (b = marker ∧ receiveByte b s = (s.storeBuf 0 marker).setCursor 1) ∨
    (∃ h : s.cursor.val + 1 < 6, s.cursor ≠ 0 ∧ b ≠ marker ∧
      receiveByte b s = (s.storeBuf s.cursor b).setCursor ⟨s.cursor.val + 1, h⟩) ∨
    (s.cursor = 5 ∧ b ≠ marker ∧ receiveByte b s = ((s.storeBuf 5 b).emitFrame).setCursor 0) := by
  by_cases hb : b = marker
  · subst hb; exact .inr (.inl ⟨rfl, receiveByte_marker s⟩)
  · by_cases hc : s.cursor = 0
    · exact .inl ⟨hc, hb, receiveByte_discard hc hb⟩
    · by_cases h : s.cursor.val + 1 < 6
      · exact .inr (.inr (.inl ⟨h, hc, hb, receiveByte_advance hc hb h⟩))
      · have h5 : s.cursor = 5 := by omega
        exact .inr (.inr (.inr ⟨h5, hb, receiveByte_complete h5 hb⟩))

end Sys2Proof.Machine
end

