-- ==== Sys2Proof/Laws/Step.lean ====
section
/-! SUPPORT. What `exec` and `step` can do, said once: an event has its effect while the block runs and no step while it is
halted; a step performs the first waiting event. -/

namespace Sys2Proof.Machine

/-- The effect of an event on a block that runs. -/
def effectOf : Instr → State → State
  | .rxb b => receiveByte b
  | .rxnone => fun s => s
  | .rxerr => fun s => s
  | .take => takeFrame
  | .seti roll pitch yaw throttle => fun s => s.setIntent ⟨roll, pitch, yaw, throttle⟩
  | .geti => fun s => s.respond (.geti (intentWord s.intent))
  | .tick => tick Config.board.toConfig

/-- Every event is its effect under the step precondition. -/
theorem exec_eq_whenRunning (i : Instr) (s : State) : exec i s = whenRunning s (effectOf i) := by
  cases i <;> rfl

/-- Everything an event can do when it answers a next state. -/
theorem exec_eq_next {i : Instr} {s t : State} (h : exec i s = .next t) : s.halted = false ∧ t = effectOf i s :=
  whenRunning_eq_next (exec_eq_whenRunning i s ▸ h)

theorem exec_running {s : State} (h : s.halted = false) (i : Instr) : exec i s = .next (effectOf i s) := by
  rw [exec_eq_whenRunning, whenRunning_running h]

theorem exec_halted {s : State} (h : s.halted = true) (i : Instr) : exec i s = .fault .halted := by
  rw [exec_eq_whenRunning, whenRunning_halted h]

theorem step_idle {s : State} (h : s.pending = []) : step s = .next s := by
  rw [step, h]

theorem step_event {s : State} {w : EventWord} {rest : List EventWord} {i : Instr} (hp : s.pending = w :: rest)
    (hd : decode w = .ok i) : step s = exec i (s.setPending rest) := by
  rw [step, hp]; simp only [hd]

theorem step_refuses {s : State} {w : EventWord} {rest : List EventWord} {r : DecodeRefusal}
    (hp : s.pending = w :: rest) (hd : decode w = .error r) : step s = .refused (refusalOf r) := by
  rw [step, hp]; simp only [hd]

/-- Everything a step can do when it answers a next state. -/
theorem step_eq_next {s t : State} (h : step s = .next t) :
    (s.pending = [] ∧ t = s) ∨
    ∃ w rest i, s.pending = w :: rest ∧ decode w = .ok i ∧ s.halted = false ∧ t = effectOf i (s.setPending rest) := by
  cases hp : s.pending with
  | nil => rw [step_idle hp] at h; exact .inl ⟨rfl, (Host.Outcome.next.inj h).symm⟩
  | cons w rest =>
    cases hd : decode w with
    | error r => rw [step_refuses hp hd] at h; cases h
    | ok i =>
      rw [step_event hp hd] at h
      exact .inr ⟨w, rest, i, rfl, hd, exec_eq_next h⟩

end Sys2Proof.Machine
end

