-- ==== Sys2Proof/Laws/Run.lean ====
section
/-! SUPPORT. Runs: of steps, by the answer of the first one, and of events, by what the first and the last ones did. -/

namespace Sys2Proof.Machine

/-- A run of any machine, by the answer of its first step. -/
theorem machine_run_succ (M : Host.Core) (n : Nat) (s : M.State) :
    M.run (n + 1) s =
      match M.step s with
      | .next t => M.run n t
      | .fault f => .fault f
      | .refused r => .refused r := rfl

theorem machine_run_zero (M : Host.Core) (s : M.State) : M.run 0 s = .next s := rfl

theorem run_zero (s : State) : Sys2Proof.core.run 0 s = .next s := machine_run_zero Sys2Proof.core s

theorem run_succ_next {n : Nat} {s t : State} (h : step s = .next t) :
    Sys2Proof.core.run (n + 1) s = Sys2Proof.core.run n t := by
  have h' : Sys2Proof.core.step s = .next t := h
  exact (machine_run_succ Sys2Proof.core n s).trans (by rw [h'])

theorem run_succ_fault {n : Nat} {s : State} {f : Fault} (h : step s = .fault f) :
    Sys2Proof.core.run (n + 1) s = .fault f := by
  have h' : Sys2Proof.core.step s = .fault f := h
  exact (machine_run_succ Sys2Proof.core n s).trans (by rw [h'])

theorem run_succ_refused {n : Nat} {s : State} {r : Refusal} (h : step s = .refused r) :
    Sys2Proof.core.run (n + 1) s = .refused r := by
  have h' : Sys2Proof.core.step s = .refused r := h
  exact (machine_run_succ Sys2Proof.core n s).trans (by rw [h'])

/-- A run of steps that ends in a state begins with a step that has a next state. -/
theorem run_succ_eq_next {n : Nat} {s t : State} (h : Sys2Proof.core.run (n + 1) s = .next t) :
    ∃ u, step s = .next u ∧ Sys2Proof.core.run n u = .next t := by
  cases hs : step s with
  | next u => exact ⟨u, rfl, run_succ_next hs ▸ h⟩
  | fault f => rw [run_succ_fault hs] at h; cases h
  | refused r => rw [run_succ_refused hs] at h; cases h

/-- What holds at the start and is kept by every step holds after every run of steps. -/
theorem run_induction {P : State → Prop} (keep : ∀ s t, P s → step s = .next t → P t) {n : Nat} {s t : State}
    (hs : P s) (h : Sys2Proof.core.run n s = .next t) : P t := by
  induction n generalizing s with
  | zero => rw [run_zero] at h; exact Host.Outcome.next.inj h ▸ hs
  | succ n ih =>
    obtain ⟨u, hu, hr⟩ := run_succ_eq_next h
    exact ih (keep s u hs hu) hr

/-- A run of events that ends in a state performs its first event on a running block. -/
theorem perform_cons_eq_next {i : Instr} {es : List Instr} {s t : State} (h : perform (i :: es) s = .next t) :
    s.halted = false ∧ perform es (effectOf i s) = .next t := by
  cases hs : s.halted
  · rw [perform, exec_running hs] at h; exact ⟨rfl, h⟩
  · rw [perform, exec_halted hs] at h; cases h

theorem perform_cons_running {i : Instr} {es : List Instr} {s : State} (h : s.halted = false) :
    perform (i :: es) s = perform es (effectOf i s) := by
  rw [perform, exec_running h]

theorem perform_cons_halted {i : Instr} {es : List Instr} {s : State} (h : s.halted = true) :
    perform (i :: es) s = .fault .halted := by
  rw [perform, exec_halted h]

/-- A run of events cut in two. -/
theorem perform_append_eq_next {es es' : List Instr} {s t : State} (h : perform (es ++ es') s = .next t) :
    ∃ u, perform es s = .next u ∧ perform es' u = .next t := by
  induction es generalizing s with
  | nil => exact ⟨s, rfl, h⟩
  | cons i es ih =>
    obtain ⟨hs, hr⟩ := perform_cons_eq_next h
    obtain ⟨u, hu, hv⟩ := ih hr
    exact ⟨u, perform_cons_running hs ▸ hu, hv⟩

/-- What holds at the start and is kept by every event of a running block holds after every run of events. -/
theorem perform_induction {P : State → Prop} (keep : ∀ i s, P s → P (effectOf i s)) {es : List Instr} {s t : State}
    (hs : P s) (h : perform es s = .next t) : P t := by
  induction es generalizing s with
  | nil => exact Host.Outcome.next.inj h ▸ hs
  | cons i es ih => exact ih (keep i s hs) (perform_cons_eq_next h).2

end Sys2Proof.Machine
end

