-- ==== Sys2Proof/Tests/Slice0.lean ====
section
/-! SUPPORT. Tests of the model against the spec's own vectors (95_test_vectors.md, named in each test), the
well-formedness smoke tests, and a witness for every statement that has hypotheses. -/

namespace Sys2Proof.Tests

open Sys2Proof Sys2Proof.Machine

/-! ### The stand-ins of the spec's vectors and small states -/

/-- MIX_TEST (43_duty.md R173), not normative. -/
def mixTest (i : Intent) : PulseVector :=
  #v[1000 + 4 * i.roll.setWidth 16, 1000 + 4 * i.pitch.setWidth 16, 1000 + 4 * i.yaw.setWidth 16,
    1000 + 4 * i.throttle.setWidth 16]

/-- CHK_TEST (92_eei_decisions.md D13), not normative. -/
def chkTest : Checksum := fun f0 f1 f2 f3 f4 => f0 ^^^ f1 ^^^ f2 ^^^ f3 ^^^ f4

/-- The vectors' default configuration (95_test_vectors.md), `installed` being TIMER_HANDLE_INSTALLED. -/
def testConfig (installed : Bool) : LegalConfig where
  escPeriodUs := 2500
  maxDuty := #v[60000, 60000, 60000, 60000]
  mix := mixTest
  checksum := chkTest
  intentReset := ⟨0, 0, 0, 0⟩
  timerHandleInstalled := installed

def zeros : Frame := #v[0, 0, 0, 0, 0, 0]

/-- The vectors' start state. -/
def start : State := State.resetWith (testConfig true) zeros zeros (perChannel fun _ => 0xFFFF)

/-- The vectors' start state with the holder empty. -/
def startEmpty : State := State.resetWith (testConfig false) zeros zeros (perChannel fun _ => 0xFFFF)

/-- A state with a partial frame. -/
def withPartial (cursor : Fin 6) (buf : Frame) : State := { start with cursor := cursor, buf := buf }

/-- A state with an unread frame. -/
def withUnread (slot : Frame) : State := { start with slot := slot, ready := true }

/-- A state whose handle is claimed and whose duty registers hold the values of the machine's configuration. -/
def ticked : State :=
  { start with
    holderFull := false
    claimed := true
    ccr := perChannel fun ch => ⟨(motorDuty Config.board.toConfig ⟨0, 0, 0, 0⟩)[ch], true⟩ }

/-- A halted block. -/
def stopped : State := { startEmpty with halted := true, faultCode := 1 }

/-- The next state of an outcome, if there is one. -/
def nextOf (o : Host.Outcome State Fault Refusal) : Option State :=
  match o with
  | .next t => some t
  | .fault _ => none
  | .refused _ => none

/-! ### Decoding: words written out from 30_encoding.md R75 to R77 and R84, 95_test_vectors.md DEC-1 to DEC-14 -/

theorem test_decode_receiver_words :
    decode 0b0000000100000000000000000000000010101010 = .ok (.rxb 0xAA) ∧
    decode 0x0200000000 = .ok .rxnone ∧ decode 0x0300000000 = .ok .rxerr := by decide

theorem test_decode_take_word : decode 0b0001000000000000000000000000000000000000 = .ok .take := by decide

theorem test_decode_intent_words :
    decode 0b0010000001000000001100000010000000010000 = .ok (.seti 0x10 0x20 0x30 0x40) ∧
    decode 0x20FFFFFFFF = .ok (.seti 0xFF 0xFF 0xFF 0xFF) ∧ decode 0x2100000000 = .ok .geti := by decide

theorem test_decode_tick_word : decode 0b0011000000000000000000000000000000000000 = .ok .tick := by decide

theorem test_decode_refusals :
    decode 0x0100000100 = .error .reservedBits ∧ decode 0x0200000001 = .error .reservedBits ∧
    decode 0x3080000000 = .error .reservedBits ∧ decode 0x0000000000 = .error .reservedOp ∧
    decode 0x04000000AA = .error .reservedOp ∧ decode 0xFF00000000 = .error .reservedOp := by decide

/-- The host's reading of the table's rows; a number too wide for an event word is refused. -/
theorem test_decode_table_words :
    decodeTableWord 40 0x01000000AA = some (.rxb 0xAA) ∧ decodeTableWord 40 0x2040302010 = some (.seti 0x10 0x20 0x30 0x40) ∧
    decodeTableWord 40 0x0400000000 = none ∧ decodeTableWord 48 0x010000000000 = none := by decide

/-- Every row's word, placed where the step takes its next event, runs as the first event after reset. -/
theorem test_first_event_after_reset :
    [0x0100000055, 0x01000000AA, 0x0200000000, 0x0300000000, 0x1000000000, 0x2040302010, 0x2100000000,
      0x3000000000].all (fun w => (nextOf (step (State.reset.withFetchWord 40 w))).isSome) = true := by decide

/-! ### Well-formedness smoke tests: each check refuses an ill-formed term -/

theorem test_wellFormed_word_refuses :
    eventWordWellFormed 0x0100000100 = false ∧ eventWordWellFormed 0x0200000001 = false ∧
    eventWordWellFormed 0x0400000000 = false ∧ eventWordWellFormed 0x01000000FF = true := by decide

theorem test_wellFormed_line_refuses :
    (AsmLine.rx 256).wellFormed = false ∧ (AsmLine.seti 0 0 0 256).wellFormed = false ∧
    (AsmLine.rxs []).wellFormed = false ∧ (AsmLine.rxs [1, 256]).wellFormed = false ∧
    (AsmLine.sendframe 0 0 0 0 256).wellFormed = false ∧ (AsmLine.sendframeChk 256 0 0 0).wellFormed = false ∧
    (AsmLine.rx 255).wellFormed = true := by decide

theorem test_wellFormed_frame_refuses :
    frameWellFormed #v[0x55, 1, 2, 3, 4, 5] = false ∧ frameWellFormed #v[0xAA, 1, 2, 3, 4, 5] = true := by decide

/-! ### RXB, RXNONE, RXERR: vectors RXB-1 to RXB-7, and R106's and R107's examples -/

theorem test_rxb_discard_start_resync_advance :
    nextOf (exec (.rxb 0x55) start) = some start ∧
    nextOf (exec (.rxb 0xAA) start) = some { start with cursor := 1, buf := #v[0xAA, 0, 0, 0, 0, 0] } ∧
    nextOf (exec (.rxb 0xAA) (withPartial 3 #v[0xAA, 1, 2, 0, 0, 0])) = some (withPartial 1 #v[0xAA, 1, 2, 0, 0, 0]) ∧
    nextOf (exec (.rxb 0x03) (withPartial 3 #v[0xAA, 1, 2, 0, 0, 0])) = some (withPartial 4 #v[0xAA, 1, 2, 3, 0, 0]) := by
  decide

theorem test_rxb_complete_or_resync_at_five :
    nextOf (exec (.rxb 0xFF) (withPartial 5 #v[0xAA, 1, 2, 3, 4, 0])) =
      some { start with cursor := 0, buf := #v[0xAA, 1, 2, 3, 4, 0xFF], slot := #v[0xAA, 1, 2, 3, 4, 0xFF], ready := true } ∧
    nextOf (exec (.rxb 0xAA) (withPartial 5 #v[0xAA, 1, 2, 3, 4, 0])) = some (withPartial 1 #v[0xAA, 1, 2, 3, 4, 0]) := by
  decide

theorem test_rxnone_changes_nothing :
    nextOf (exec .rxnone (withPartial 3 #v[0xAA, 1, 2, 0, 0, 0])) = some (withPartial 3 #v[0xAA, 1, 2, 0, 0, 0]) := by decide

theorem test_rxerr_changes_nothing :
    nextOf (exec .rxerr (withPartial 2 #v[0xAA, 1, 0, 0, 0, 0])) = some (withPartial 2 #v[0xAA, 1, 0, 0, 0, 0]) := by decide

/-! ### TAKE: R132's example -/

theorem test_take_returns_frame :
    nextOf (exec .take (withUnread #v[0xAA, 2, 3, 4, 5, 6])) =
      some { start with slot := #v[0xAA, 2, 3, 4, 5, 6], outputs := [.take 0x10605040302AA] } := by decide

theorem test_take_returns_none : nextOf (exec .take start) = some { start with outputs := [.take 0] } := by decide

/-! ### SETI, GETI: R150's and R151's examples -/

theorem test_seti_writes_fields :
    nextOf (exec (.seti 0x10 0x20 0x30 0x40) start) = some { start with intent := ⟨0x10, 0x20, 0x30, 0x40⟩ } := by decide

theorem test_geti_answers_word :
    nextOf (exec .geti { start with intent := ⟨0x10, 0x20, 0x30, 0x40⟩ }) =
      some { start with intent := ⟨0x10, 0x20, 0x30, 0x40⟩, outputs := [.geti 0x40302010] } := by decide

/-! ### CONVERT: vectors DUTY-1 to DUTY-17; TICK: vectors TK-1, TK-5 -/

theorem test_convert_vectors :
    [(0, 60000, 2500, 0), (1, 60000, 2500, 24), (1000, 60000, 2500, 24000), (2500, 60000, 2500, 60000),
      (2501, 60000, 2500, 60000), (65535, 60000, 2500, 60000), (65535, 65535, 2500, 65535), (65535, 65535, 1, 65535),
      (1, 65535, 2500, 26), (1234, 65535, 2500, 32348), (2499, 65535, 2500, 65508), (1000, 0, 2500, 0),
      (1000, 999, 2500, 399), (3, 1000, 2500, 1), (1500, 65535, 20000, 4915), (1, 1, 2, 0), (3000, 60000, 2500, 60000)].all
      (fun v : BitVec 16 × BitVec 16 × Nat × BitVec 16 => convert v.2.2.1 v.1 v.2.1 == v.2.2.2) = true := by decide

theorem test_tick_claims_and_writes :
    (tick (testConfig true).toConfig { start with intent := ⟨0x10, 0x20, 0x30, 0x40⟩ }).ccr =
      #v[⟨25536, true⟩, ⟨27072, true⟩, ⟨28608, true⟩, ⟨30144, true⟩] ∧
    (tick (testConfig true).toConfig start).claimed = true ∧ (tick (testConfig true).toConfig start).holderFull = false := by
  decide

theorem test_tick_without_handle_fail_stops :
    nextOf (exec .tick startEmpty) = some stopped ∧ statusWord stopped = 0x101 := by decide

/-! ### The host and the notation: SRC-3, P1's poll, R83's expansions -/

theorem test_checksum_vectors :
    checkCrc chkTest #v[0xAA, 0x10, 0x20, 0x30, 0x40, 0xEA] = true ∧
    checkCrc chkTest #v[0xAA, 0x10, 0x20, 0x30, 0x40, 0x00] = false ∧
    checkCrc chkTest #v[0xAA, 0x21, 0x22, 0x23, 0x24, 0x00] = false := by decide

theorem test_poll_commits_intent :
    (nextOf (poll chkTest (withUnread #v[0xAA, 0x10, 0x20, 0x30, 0x40, 0xEA]))).map State.intent =
      some ⟨0x10, 0x20, 0x30, 0x40⟩ := by decide

theorem test_assemble_lines :
    assembleWords (some chkTest)
      ["rx 0xAA ; a marker".toList, "  ".toList, "rx.none".toList, "seti 0x10, 0x20, 0x30, 0x40".toList, "rxs 1,2".toList] =
      .ok [0x01000000AA, 0x0200000000, 0x2040302010, 0x0100000001, 0x0100000002] ∧
    assembleWords (some chkTest) ["sendframe.chk 0x11, 0x12, 0x13, 0x14".toList] =
      .ok [0x01000000AA, 0x0100000011, 0x0100000012, 0x0100000013, 0x0100000014, 0x01000000AE] := by decide

theorem test_assemble_refusals :
    assemble none ["rx 256".toList] = .error .doesNotFit ∧ assemble none ["rx".toList] = .error .operandCount ∧
    assemble none ["rx 0x".toList] = .error .notANumber ∧ assemble none ["halt".toList] = .error .unknownMnemonic ∧
    assemble none ["sendframe.chk 1, 2, 3, 4".toList] = .error .noChecksum := by decide

/-! ### Witnesses: concrete states and operands that meet each statement's hypotheses -/

/-- A block whose handle is claimed, its duty registers at 0. -/
def claimedZero : State :=
  { start with holderFull := false, claimed := true, ccr := perChannel fun _ => ⟨0, true⟩ }

theorem inv_start : Inv start := by
  refine ⟨by decide, by decide, by decide, by decide, by decide, fun ch h => ?_, by decide, by decide⟩
  rw [show start.ccr[ch] = ⟨0xFFFF, false⟩ from (perChannel_get _ ch).trans (by rw [perChannel_get])] at h
  cases h

theorem inv_unread : Inv (withUnread #v[0xAA, 1, 2, 3, 4, 5]) :=
  ⟨by decide, by decide, fun _ => ⟨by decide, by decide⟩, by decide, by decide, inv_start.ccr_bounded, by decide, by decide⟩

theorem inv_claimedZero : Inv claimedZero := by
  refine ⟨by decide, by decide, by decide, by decide, by decide, fun ch h => ?_, by decide, by decide⟩
  rw [show claimedZero.ccr[ch] = ⟨0, true⟩ from perChannel_get _ ch]
  simp [BitVec.le_def]

theorem witness_EncodeInvertsDecode : decode 0x20FFFFFFFF = .ok (.seti 0xFF 0xFF 0xFF 0xFF) := by decide

theorem witness_TableRowsDoNotOverlap :
    (Instr.row .tick) ∈ eventRows ∧ (Instr.row .tick).covers 0x3000000000 = true := by decide

theorem witness_ReservedWordsRefusedByReason :
    ({ stopped with pending := [0x04000000AA] }).pending = [0x04000000AA] ∧
    (opOf 0x04000000AA ≠ 0x01 ∧ opOf 0x04000000AA ≠ 0x02 ∧ opOf 0x04000000AA ≠ 0x03 ∧ opOf 0x04000000AA ≠ 0x10 ∧
      opOf 0x04000000AA ≠ 0x20 ∧ opOf 0x04000000AA ≠ 0x21 ∧ opOf 0x04000000AA ≠ 0x30) ∧
    (opOf 0x0100000100 = 0x01 ∧ (payloadOf 0x0100000100).extractLsb' 8 24 ≠ 0) ∧
    (opOf 0x3080000000 = 0x30 ∧ payloadOf 0x3080000000 ≠ 0) ∧ opOf 0x20FFFFFFFF = 0x20 := by decide

theorem witness_StepPerformsTheDecodedEvent :
    ({ start with pending := [0x3000000000] }).pending = 0x3000000000 :: [] ∧ decode 0x3000000000 = .ok .tick ∧
    start.pending = [] := by decide

/-- Also the witness of the statements whose only hypothesis is a running block. -/
theorem witness_EveryEventCompletesWhileRunning : start.halted = false := by decide

theorem witness_RxbFollowsTheFiveRows :
    (start.halted = false ∧ start.cursor = 0 ∧ (0x55 : Byte) ≠ 0xAA) ∧
    ((withPartial 1 #v[0xAA, 0, 0, 0, 0, 0]).cursor.val = 1 ∧ 1 + 1 < 6 ∧ (0xAB : Byte) ≠ 0xAA) ∧
    ((withPartial 4 #v[0xAA, 1, 2, 3, 0, 0]).cursor.val = 4 ∧ 4 + 1 < 6 ∧ (0xAB : Byte) ≠ 0xAA) ∧
    ((withPartial 5 #v[0xAA, 1, 2, 3, 4, 0]).cursor = 5 ∧ (withPartial 5 #v[0xAA, 1, 2, 3, 4, 0]).halted = false) := by
  decide

theorem witness_DataBytesWhileSeekingLeaveNoTrace :
    start.halted = false ∧ start.cursor = 0 ∧ ∀ b ∈ ([0xFF, 0x00] : List Byte), b ≠ marker := by decide

theorem witness_ReadMissesChangeNothing :
    start.halted = false ∧ ∀ i ∈ [Instr.rxnone, Instr.rxerr], i = .rxnone ∨ i = .rxerr := by decide

theorem witness_ReceiverKeepsToItsOwnState :
    (Instr.rxb 1).agent = .rx ∧ (nextOf (exec (.rxb 1) (withPartial 5 zeros))).isSome = true ∧
    (nextOf (exec (.rxb 1) { withPartial 5 zeros with claimed := true })).isSome = true := by decide

theorem witness_PartialFrameHasNoTimeout :
    receivedBytes [.rxnone, .take, .tick] = [] ∧
    (nextOf (perform [.rxnone, .take, .tick] (withPartial 3 zeros))).isSome = true := by decide

theorem witness_BufferHoldsBytesSinceMarker :
    start.cursor = 0 ∧ (nextOf (perform [.rxb 9, .rxb 0xAA, .rxb 1] start)).map State.cursor = some 2 ∧
    handedOverIn [.rxb 0xAA, .rxb 1, .rxb 2, .rxb 3, .rxb 4, .rxb 5] start = [#v[0xAA, 1, 2, 3, 4, 5]] := by decide

theorem witness_FrameEmittedIffMarkerAndFiveData :
    start.cursor = 0 ∧
    (nextOf (perform [.rxb 7, .rxb 0xAA, .rxb 1, .rxb 2, .rxb 3, .rxb 4, .rxb 5] start)).isSome = true ∧
    receivedBytes [.rxb 7, .rxb 0xAA, .rxb 1, .rxb 2, .rxb 3, .rxb 4] ++ [5] = [7] ++ [0xAA, 1, 2, 3, 4, 5] ∧
    handedOverIn [.rxb 0xAA, .rxb 1, .rxb 2, .rxb 3, .rxb 4, .rxb 0xAA] start = [] := by decide

theorem witness_NewFrameOverwritesUnreadOne :
    (withPartial 5 zeros).halted = false ∧ (withPartial 5 zeros).cursor = 5 ∧ (0xFF : Byte) ≠ marker := by decide

theorem witness_TakeReturnsFrameAndClearsReady :
    (withUnread #v[0xAA, 1, 2, 3, 4, 5]).halted = false ∧ (withUnread #v[0xAA, 1, 2, 3, 4, 5]).ready = true ∧
    Inv (withUnread #v[0xAA, 1, 2, 3, 4, 5]) ∧ start.ready = false := ⟨by decide, by decide, inv_unread, by decide⟩

theorem witness_TakesMatchOnePlaceMailbox :
    start.cursor = 0 ∧ start.ready = false ∧
    (nextOf (perform [.rxb 0xAA, .rxb 1, .rxb 2, .rxb 3, .rxb 4, .rxb 5, .take] start)).isSome = true ∧
    expectedTakes [.rxb 0xAA, .rxb 1, .rxb 2, .rxb 3, .rxb 4, .rxb 5, .take, .take] [] none =
      [some #v[0xAA, 1, 2, 3, 4, 5], none] := by decide

theorem witness_FirstTakeReturnsTheFrame :
    (withPartial 5 zeros).cursor = 5 ∧ (1 : Byte) ≠ marker ∧
    (nextOf (perform [.rxb 1, .rxb 0xAA, .tick] (withPartial 5 zeros))).map State.halted = some false ∧
    handedOverIn [.rxb 0xAA, .tick] (receiveByte 1 (withPartial 5 zeros)) = [] ∧ Instr.take ∉ [.rxb 0xAA, .tick] := by
  decide

theorem witness_ReadersSeeTheLastSeti :
    (nextOf (perform [.seti 1 2 3 4, .rxnone] start)).map State.halted = some false ∧ canClaim start := by
  refine ⟨by decide, .inr rfl⟩

theorem witness_ConvertStatements :
    1 ≤ 2500 ∧ 2500 ≤ (2500 : BitVec 16).toNat ∧ (2499 : BitVec 16).toNat < 2500 ∧ (2499 : BitVec 16) ≤ 2500 := by decide

theorem witness_TickClaimsThenWritesEveryChannel :
    (claimedZero.halted = false ∧ claimedZero.claimed = true) ∧
    (start.halted = false ∧ start.claimed = false ∧ start.holderFull = true) ∧
    (startEmpty.halted = false ∧ startEmpty.claimed = false ∧ startEmpty.holderFull = false) := by decide

theorem witness_TickHasNoMemoryAcrossPeriods :
    start.intent = claimedZero.intent ∧ canClaim start ∧ canClaim claimedZero ∧
    (nextOf (exec .tick start)).isSome = true ∧ (nextOf (exec .tick claimedZero)).isSome = true :=
  ⟨by decide, .inr rfl, .inl rfl, by decide, by decide⟩

theorem witness_ClaimedHandleStaysClaimed :
    (Inv start ∧ (nextOf (exec .tick start)).map State.halted = some false) ∧
    (Inv claimedZero ∧ claimedZero.claimed = true ∧ Inv { claimedZero with pending := [0x0200000000] } ∧
      ∃ t, Sys2Proof.core.run 1 { claimedZero with pending := [0x0200000000] } = .next t) :=
  ⟨⟨inv_start, by decide⟩, inv_claimedZero, by decide, ⟨inv_claimedZero.1, inv_claimedZero.2, inv_claimedZero.3, inv_claimedZero.4,
    inv_claimedZero.5, inv_claimedZero.6, inv_claimedZero.7, inv_claimedZero.8⟩, _, (run_succ_next rfl).trans (run_zero _)⟩

theorem witness_DutyPortObservableAfterTick :
    start.ccr[(0 : Fin 4)].written = false ∧ start.ccr[(3 : Fin 4)].written = false ∧
    claimedZero.ccr[(0 : Fin 4)].written = true ∧ claimedZero.ccr[(3 : Fin 4)].written = true ∧
    (nextOf (exec .tick start)).map State.halted = some false := by decide

theorem witness_NoFailsafeCutsTheOutputs :
    ([.rxerr, .tick, .take] : List Instr).filterMap committedIntent = [] ∧
    (nextOf (perform [.rxerr, .tick, .take] ticked)).isSome = true ∧ ticked.claimed = true ∧
    ticked.ccr = perChannel fun ch => ⟨(motorDuty Config.board.toConfig ticked.intent)[ch], true⟩ :=
  ⟨by decide, by decide, by decide, rfl⟩

theorem witness_FailStopHaltsEveryAgent :
    startEmpty.halted = false ∧ startEmpty.claimed = false ∧ startEmpty.holderFull = false ∧
    decode 0x1000000000 = .ok .take := by decide

theorem witness_RefusalThenHaltThenClaim :
    decode 0x0000000000 = .error .reservedOp ∧ stopped.halted = true ∧
    (nextOf (exec .tick startEmpty)).map State.halted = some (!startEmpty.halted) := by decide

theorem witness_OnlyUnclaimableTickWritesFaultState :
    (nextOf (exec (.rxb 0) startEmpty)).isSome = true ∧ Instr.rxb 0 ≠ .tick ∧
    (nextOf (exec .tick start)).isSome = true ∧ canClaim start :=
  ⟨by decide, by decide, by decide, .inr rfl⟩

theorem witness_HaltedBlockNeverRunsAgain :
    stopped.halted = true ∧ Sys2Proof.core.run 1 stopped = .next stopped :=
  ⟨by decide, (run_succ_next rfl).trans (run_zero _)⟩

theorem witness_ElementsWrittenOnlyByTheirOwner :
    (nextOf (exec .take (withUnread zeros))).isSome = true ∧ (nextOf (exec .tick start)).isSome = true ∧
    (nextOf (exec (.rxb 0xAA) (withUnread zeros))).isSome = true := by decide

theorem witness_ReceiverAndTickCommute : (Instr.rxb 0xAA).agent = .rx ∧ canClaim start := ⟨by decide, .inr rfl⟩

theorem witness_EveryStepKeepsTheInvariant :
    Inv { start with pending := [0x01000000AA] } ∧
    (nextOf (step { start with pending := [0x01000000AA] })).map State.cursor = some 1 :=
  ⟨⟨inv_start.1, inv_start.2, inv_start.3, inv_start.4, inv_start.5, inv_start.6, inv_start.7, inv_start.8⟩, by decide⟩

theorem witness_ZeroPeriodIsRefusedAtTheBoundary :
    ({ (testConfig true).toConfig with escPeriodUs := 0 }).escPeriodUs = 0 ∧ (testConfig true).toConfig.escPeriodUs ≠ 0 :=
  ⟨rfl, (testConfig true).period_ne_zero⟩

theorem witness_PollCommitsOnlyCheckedFrames :
    (withUnread #v[0xAA, 1, 2, 3, 4, 5]).halted = false ∧ (withUnread #v[0xAA, 1, 2, 3, 4, 5]).ready = true ∧
    chkTest 0xAA 1 2 3 4 ≠ 5 ∧ chkTest 0xAA 0x10 0x20 0x30 0x40 = 0xEA ∧ start.ready = false := by decide

theorem witness_ReceivedFrameReachesTheDutyRegisters :
    (0xEA : Byte) = chkTest 0xAA 0x10 0x20 0x30 0x40 ∧ (0xEA : Byte) ≠ 0xAA ∧
    receivedBytes [.rxb 0xAA, .rxb 0x10, .rxb 0x20, .tick, .rxb 0x30, .rxb 0x40] = [0xAA, 0x10, 0x20, 0x30, 0x40] ∧
    (nextOf (perform [.rxb 0xAA, .rxb 0x10, .rxb 0x20, .tick, .rxb 0x30, .rxb 0x40, .rxb 0xEA, .tick] start)).map
      (fun u => (u.halted, u.claimed)) = some (false, true) ∧ Instr.take ∉ [.tick] ∧
    (nextOf (perform [.rxb 0xAA, .rxb 0x10, .rxb 0x20, .tick, .rxb 0x30, .rxb 0x40, .rxb 0xEA] start)).map
      (handedOverIn [.tick]) = some [] ∧
    ([.tick] : List Instr).filterMap committedIntent = [] := by decide

theorem witness_PseudoInstructionsExpand : ([0xAA, 255] : List Nat) ≠ [] ∧ (∀ b ∈ ([0xAA, 255] : List Nat), b < 256) := by
  decide

end Sys2Proof.Tests
end

section
/-! SUPPORT. Runs whose every event leaves the state, or a property of it, as it was. -/

namespace Sys2Proof.Machine

/-- What holds at the start and is kept by every event of this very run holds after it. -/
theorem perform_induction_mem {motive : State → Prop} {es : List Instr}
    (keep : ∀ i ∈ es, ∀ s, motive s → motive (effectOf i s)) {s t : State} (hs : motive s)
    (h : perform es s = .next t) : motive t := by
  induction es generalizing s with
  | nil => exact Host.Outcome.next.inj h ▸ hs
  | cons i es ih =>
    have hi : motive (effectOf i s) := keep i List.mem_cons_self s hs
    exact ih (fun j hj => keep j (List.mem_cons_of_mem i hj)) hi (perform_cons_eq_next h).2

/-- A run of events that each leave a running block as it is leaves it as it is. -/
theorem perform_eq_self {es : List Instr} {s : State} (hs : s.halted = false) (keep : ∀ i ∈ es, effectOf i s = s) :
    perform es s = .next s := by
  induction es with
  | nil => rfl
  | cons i es ih =>
    rw [perform_cons_running hs, keep i List.mem_cons_self]
    exact ih fun j hj => keep j (List.mem_cons_of_mem i hj)

end Sys2Proof.Machine
end

section
/-! SUPPORT. The partial frame, `cursor` and `buf`, is the framer's own: no event but an RXB writes it
(40_receiver.md R106, R107, R111). -/

namespace Sys2Proof.Machine

/-- A read miss, RXNONE or RXERR, has no effect on the state (40_receiver.md R106, R107). -/
theorem effectOf_readMiss {i : Instr} (hi : i = .rxnone ∨ i = .rxerr) (s : State) : effectOf i s = s := by
  rcases hi with rfl | rfl <;> rfl

/-- A TICK keeps the partial frame, whether it writes the duty registers or fail-stops. -/
theorem tick_keeps_partial_frame (c : Config) (s : State) : (tick c s).cursor = s.cursor ∧ (tick c s).buf = s.buf := by
  obtain ⟨-, h⟩ | ⟨-, -, h⟩ | ⟨-, -, h⟩ := tick_cases c s
  · rw [h, writeDuty_eq]; exact ⟨rfl, rfl⟩
  · rw [h, writeDuty_eq]; exact ⟨rfl, rfl⟩
  · rw [h, State.raiseFault_eq]; exact ⟨rfl, rfl⟩

/-- An event that delivers no byte keeps the partial frame (40_receiver.md R111). -/
theorem effectOf_keeps_partial_frame {i : Instr} (hi : receivedByte i = none) (s : State) :
    (effectOf i s).cursor = s.cursor ∧ (effectOf i s).buf = s.buf := by
  cases i with
  | rxb b => cases hi
  | rxnone => exact ⟨rfl, rfl⟩
  | rxerr => exact ⟨rfl, rfl⟩
  | take => exact ⟨rfl, rfl⟩
  | seti roll pitch yaw throttle => exact ⟨rfl, rfl⟩
  | geti => exact ⟨rfl, rfl⟩
  | tick => exact tick_keeps_partial_frame _ s

end Sys2Proof.Machine
end

section
/-! PROOFS. The statements about the FrameReceiver's single events and its silence (40_receiver.md R101, R103, R106, R107,
R111). -/

namespace Sys2Proof.Machine

/-- Settles O15: each data byte of the run meets the discard row, which keeps the state. -/
theorem dataBytesWhileSeekingLeaveNoTrace : Obligations.DataBytesWhileSeekingLeaveNoTrace := by
  intro s bs hs hc hdata
  refine perform_eq_self hs fun i hi => ?_
  obtain ⟨b, hbs, rfl⟩ := List.mem_map.mp hi
  exact receiveByte_discard hc (hdata b hbs)

/-- Settles O18: a run that received no byte consists of events that keep the partial frame. -/
theorem partialFrameHasNoTimeout : Obligations.PartialFrameHasNoTimeout := by
  intro es s t hes h
  have hnone : ∀ i ∈ es, receivedByte i = none := List.filterMap_eq_nil_iff.mp hes
  refine perform_induction_mem (motive := fun u => u.cursor = s.cursor ∧ u.buf = s.buf) ?_ ⟨rfl, rfl⟩ h
  rintro i hi u ⟨hcursor, hbuf⟩
  obtain ⟨hcursor', hbuf'⟩ := effectOf_keeps_partial_frame (hnone i hi) u
  exact ⟨hcursor'.trans hcursor, hbuf'.trans hbuf⟩

/-- Settles O14: the rows of the table are those of `receiveByte`, and the block runs. -/
theorem rxbFollowsTheFiveRows : Obligations.RxbFollowsTheFiveRows := by
  intro s b hs
  have hexec : exec (.rxb b) s = .next (receiveByte b s) := exec_running hs (.rxb b)
  refine ⟨fun hc hb => ?_, fun hb => ?_, fun k h hk h0 hb => ?_, fun hc hb => ?_⟩
  · rw [hexec, receiveByte_discard hc hb]
  · subst hb
    exact hexec.trans (congrArg _ (receiveByte_marker s))
  · subst hk
    have hc : s.cursor ≠ 0 := fun h => h0 (congrArg Fin.val h)
    rw [hexec, receiveByte_advance hc hb h]
    rfl
  · rw [hexec, receiveByte_complete hc hb]
    rfl

/-- Settles O16: neither read miss has an effect, so no sequence of them has one. -/
theorem readMissesChangeNothing : Obligations.ReadMissesChangeNothing := by
  intro s hs
  refine ⟨exec_running hs .rxnone, exec_running hs .rxerr, fun es hes => ?_⟩
  exact perform_eq_self hs fun i hi => effectOf_readMiss (hes i hi) s

end Sys2Proof.Machine
end

section
/-! SUPPORT. What a TAKE does to the state: it hands the unread frame over, or answers none (41_handoff.md R132). -/

namespace Sys2Proof.Machine

/-- After a TAKE nothing is unread, so the next one finds no frame. -/
@[simp] theorem takeFrame_ready (s : State) : (takeFrame s).ready = false := rfl

/-- With an unread frame TAKE clears `ready` and answers that frame; `slot` keeps it. -/
theorem takeFrame_unread {s : State} (h : s.ready = true) :
    takeFrame s = { s with ready := false, outputs := s.outputs ++ [.take (takeWord (some s.slot))] } := by
  rw [takeFrame, State.pendingFrame, if_pos h]
  rfl

/-- With nothing unread TAKE answers none and writes nothing of the block: clearing `ready` changes nothing then. -/
theorem takeFrame_none {s : State} (h : s.ready = false) :
    takeFrame s = { s with outputs := s.outputs ++ [.take (takeWord none)] } := by
  have hclear : s.setReady false = s := by rw [← h]; rfl
  rw [takeFrame, hclear, State.pendingFrame, if_neg (by simp [h])]
  rfl

end Sys2Proof.Machine
end

section
/-! PROOFS. The statements about the two sides of the handoff, EMIT and TAKE (41_handoff.md R131, R132). -/

namespace Sys2Proof.Machine

/-- Settles O22: the second TAKE meets the state the first one left, in which `ready` is clear. -/
theorem takeReturnsFrameAndClearsReady : Obligations.TakeReturnsFrameAndClearsReady := by
  intro s hs
  have hexec : exec .take s = .next (takeFrame s) := exec_running hs .take
  refine ⟨fun hready => ⟨?_, ?_, fun hinv => (hinv.slot_frame hready).1⟩, fun hready => ?_⟩
  · rw [hexec, takeFrame_unread hready]
    rfl
  · calc perform [.take, .take] s
      _ = perform [.take] (takeFrame s) := perform_cons_running hs
      _ = .next (takeFrame (takeFrame s)) := perform_cons_running hs
      _ = .next { takeFrame s with outputs := (takeFrame s).outputs ++ [.take (takeWord none)] } := by
        rw [takeFrame_none (takeFrame_ready s)]
      _ = _ := by rw [takeFrame_unread hready, List.append_assoc]; rfl
  · rw [hexec, takeFrame_none hready]
    rfl

/-- Settles O21: the completing row of R101 reads neither `slot` nor `ready`, and writes both. -/
theorem newFrameOverwritesUnreadOne : Obligations.NewFrameOverwritesUnreadOne := by
  intro s b old unread hs hc hb
  obtain ⟨-, -, -, hcomplete⟩ := rxbFollowsTheFiveRows { s with slot := old, ready := unread } b hs
  exact hcomplete hc hb

end Sys2Proof.Machine
end

section
/-! SUPPORT. What SETI and GETI do while the block runs (42_intent.md R150, R151). -/

namespace Sys2Proof.Machine

/-- Last write wins (42_intent.md R150). -/
@[simp] theorem State.setIntent_setIntent (s : State) (i j : Intent) : (s.setIntent i).setIntent j = s.setIntent j := rfl

/-- SETI writes the intent register and nothing else. -/
theorem exec_seti_running {s : State} (h : s.halted = false) (roll pitch yaw throttle : Byte) :
    exec (.seti roll pitch yaw throttle) s = .next (s.setIntent ⟨roll, pitch, yaw, throttle⟩) :=
  exec_running h (.seti roll pitch yaw throttle)

/-- GETI answers the intent word and writes nothing of the block. -/
theorem exec_geti_running {s : State} (h : s.halted = false) :
    exec .geti s = .next (s.respond (.geti (intentWord s.intent))) := exec_running h .geti

end Sys2Proof.Machine
end

section
/-! PROOFS. The statements about the intent register's single events (42_intent.md R150, R151). -/

namespace Sys2Proof.Machine

/-- Settles O25: SETI writes the register whatever it holds, and it leaves the block running for the second one, whose
write replaces the first. -/
theorem setiWritesTheIntent : Obligations.SetiWritesTheIntent := by
  intro s r p y t r' p' y' t' hs
  refine ⟨exec_seti_running hs r p y t, ?_⟩
  have hs' : (s.setIntent ⟨r, p, y, t⟩).halted = false := hs
  calc perform [.seti r p y t, .seti r' p' y' t'] s
    _ = perform [.seti r' p' y' t'] (s.setIntent ⟨r, p, y, t⟩) := perform_cons_running hs
    _ = .next ((s.setIntent ⟨r, p, y, t⟩).setIntent ⟨r', p', y', t'⟩) := perform_cons_running hs'
    _ = .next (s.setIntent ⟨r', p', y', t'⟩) := by rw [State.setIntent_setIntent]

/-- Settles O26: the intent word is the four bytes in the order of 30_encoding.md R76; the state after reset runs, has
`INTENT_RESET` as its intent and no earlier answer on its ports. -/
theorem getiAnswersTheIntent : Obligations.GetiAnswersTheIntent := by
  refine ⟨fun s hs => exec_geti_running hs, fun c bufAny slotAny ccrAny => ?_⟩
  have hs : (State.resetWith c bufAny slotAny ccrAny).halted = false := rfl
  exact ⟨_, exec_geti_running hs, rfl⟩

end Sys2Proof.Machine
end

section
/-! SUPPORT. What a TICK that can claim leaves in the duty registers (43_duty.md R170, R171). -/

namespace Sys2Proof.Machine

/-- A TICK that can claim writes every duty register from the intent alone; taking the handle first does not touch the
intent (43_duty.md R171, R177). -/
theorem tick_ccr_of_canClaim (c : Config) {s : State} (h : canClaim s) :
    (tick c s).ccr = perChannel fun ch => { value := (motorDuty c s.intent)[ch], written := true } := by
  obtain ⟨-, htick⟩ | ⟨-, -, htick⟩ | ⟨hclaimed, hholder, -⟩ := tick_cases c s
  · rw [htick, writeDuty_eq]
  · rw [htick, writeDuty_eq, State.takeHandle_intent]
  · simp [canClaim, hclaimed, hholder] at h

end Sys2Proof.Machine
end

section
/-! PROOFS. The statement about the duty values and the past of the block (43_duty.md R177). -/

namespace Sys2Proof.Machine

/-- Settles O31: both TICKs write the duty values of the one intent. -/
theorem tickHasNoMemoryAcrossPeriods : Obligations.TickHasNoMemoryAcrossPeriods := by
  intro s s' t t' hintent hclaim hclaim' h h'
  obtain ⟨-, rfl⟩ := exec_eq_next h
  obtain ⟨-, rfl⟩ := exec_eq_next h'
  calc (tick Config.board.toConfig s).ccr
    _ = perChannel fun ch => { value := (motorDuty Config.board.toConfig s.intent)[ch], written := true } :=
      tick_ccr_of_canClaim _ hclaim
    _ = perChannel fun ch => { value := (motorDuty Config.board.toConfig s'.intent)[ch], written := true } := by
      rw [hintent]
    _ = (tick Config.board.toConfig s').ccr := (tick_ccr_of_canClaim _ hclaim').symm

end Sys2Proof.Machine
end

section
/-! SUPPORT. The fault state, `halted` and `fault_code`, is written only by the fail-stop of a TICK that cannot claim
(60_exceptions.md R203, R204). -/

namespace Sys2Proof.Machine

/-- No row of RXB's table writes the fault state (40_receiver.md R101). -/
theorem receiveByte_keeps_fault_state (b : Byte) (s : State) :
    (receiveByte b s).halted = s.halted ∧ (receiveByte b s).faultCode = s.faultCode := by
  obtain ⟨-, -, h⟩ | ⟨-, h⟩ | ⟨hroom, -, -, h⟩ | ⟨-, -, h⟩ := receiveByte_cases b s
  · rw [h]; exact ⟨rfl, rfl⟩
  · rw [h]; exact ⟨rfl, rfl⟩
  · rw [h]; exact ⟨rfl, rfl⟩
  · rw [h, State.emitFrame_eq]; exact ⟨rfl, rfl⟩

/-- A TICK that can claim does not reach the fail-stop (43_duty.md R171). -/
theorem tick_keeps_fault_state_of_canClaim (c : Config) {s : State} (hclaim : canClaim s) :
    (tick c s).halted = s.halted ∧ (tick c s).faultCode = s.faultCode := by
  obtain ⟨-, h⟩ | ⟨-, -, h⟩ | ⟨hclaimed, hholder, -⟩ := tick_cases c s
  · rw [h, writeDuty_eq]; exact ⟨rfl, rfl⟩
  · rw [h, writeDuty_eq]; exact ⟨rfl, rfl⟩
  · simp [canClaim, hclaimed, hholder] at hclaim

/-- Every event but a TICK that cannot claim keeps the fault state (60_exceptions.md R204). -/
theorem effectOf_keeps_fault_state {i : Instr} {s : State} (hi : i ≠ .tick ∨ canClaim s) :
    (effectOf i s).halted = s.halted ∧ (effectOf i s).faultCode = s.faultCode := by
  cases i with
  | rxb b => exact receiveByte_keeps_fault_state b s
  | rxnone => exact ⟨rfl, rfl⟩
  | rxerr => exact ⟨rfl, rfl⟩
  | take => exact ⟨rfl, rfl⟩
  | seti roll pitch yaw throttle => exact ⟨rfl, rfl⟩
  | geti => exact ⟨rfl, rfl⟩
  | tick => exact tick_keeps_fault_state_of_canClaim _ (hi.neg_resolve_left rfl)

end Sys2Proof.Machine
end

section
/-! PROOFS. The statement about the listed conditions that do not stop the block (60_exceptions.md R204). -/

namespace Sys2Proof.Machine

/-- Settles O37: a next state is the event's effect, and no effect but that of a TICK that cannot claim reaches the
fail-stop. -/
theorem onlyUnclaimableTickWritesFaultState : Obligations.OnlyUnclaimableTickWritesFaultState := by
  intro s t i h hi
  obtain ⟨-, rfl⟩ := exec_eq_next h
  exact effectOf_keeps_fault_state hi

end Sys2Proof.Machine
end

section
/-! SUPPORT. The intent is written by SETI alone, and duty values that follow it are what every TICK writes again
(42_intent.md R150; 43_duty.md R170, R171). -/

namespace Sys2Proof.Machine

/-- No row of RXB's table writes the intent or the duty registers (40_receiver.md R101). -/
theorem receiveByte_keeps_intent_and_ccr (b : Byte) (s : State) :
    (receiveByte b s).intent = s.intent ∧ (receiveByte b s).ccr = s.ccr := by
  obtain ⟨-, -, h⟩ | ⟨-, h⟩ | ⟨hroom, -, -, h⟩ | ⟨-, -, h⟩ := receiveByte_cases b s
  · rw [h]; exact ⟨rfl, rfl⟩
  · rw [h]; exact ⟨rfl, rfl⟩
  · rw [h]; exact ⟨rfl, rfl⟩
  · rw [h, State.emitFrame_eq]; exact ⟨rfl, rfl⟩

/-- A TICK keeps the intent, whether it writes the duty registers or fail-stops (43_duty.md R170). -/
@[simp] theorem tick_intent (c : Config) (s : State) : (tick c s).intent = s.intent := by
  obtain ⟨-, h⟩ | ⟨-, -, h⟩ | ⟨-, -, h⟩ := tick_cases c s
  · rw [h, writeDuty_eq]
  · rw [h, writeDuty_eq, State.takeHandle_intent]
  · rw [h, State.raiseFault_eq]

/-- An event that commits no intent keeps the intent register (42_intent.md R150). -/
theorem effectOf_keeps_intent {i : Instr} (hi : committedIntent i = none) (s : State) :
    (effectOf i s).intent = s.intent := by
  cases i with
  | rxb b => exact (receiveByte_keeps_intent_and_ccr b s).1
  | rxnone => rfl
  | rxerr => rfl
  | take => rfl
  | seti roll pitch yaw throttle => cases hi
  | geti => rfl
  | tick => exact tick_intent _ s

/-- The duty registers hold the duty values of the present intent, as they do after a TICK that writes them
(43_duty.md R176). -/
def DutyFollowsIntent (s : State) : Prop :=
  s.ccr = perChannel fun ch => { value := (motorDuty Config.board.toConfig s.intent)[ch], written := true }

/-- A TICK that can claim writes the values of the intent; one that cannot writes no duty register. -/
theorem tick_keeps_dutyFollowsIntent {s : State} (h : DutyFollowsIntent s) :
    DutyFollowsIntent (tick Config.board.toConfig s) := by
  rw [DutyFollowsIntent, tick_intent]
  obtain ⟨hclaimed, -⟩ | ⟨-, hholder, -⟩ | ⟨-, -, htick⟩ := tick_cases Config.board.toConfig s
  · exact tick_ccr_of_canClaim _ (.inl hclaimed)
  · exact tick_ccr_of_canClaim _ (.inr hholder)
  · rw [htick, State.raiseFault_eq]; exact h

/-- Duty values that follow the intent do so until the next SETI (70_reset_and_hazards.md R241). -/
theorem effectOf_keeps_dutyFollowsIntent {i : Instr} (hi : committedIntent i = none) {s : State}
    (h : DutyFollowsIntent s) : DutyFollowsIntent (effectOf i s) := by
  cases i with
  | rxb b =>
    obtain ⟨hintent, hccr⟩ := receiveByte_keeps_intent_and_ccr b s
    rw [DutyFollowsIntent, effectOf, hintent, hccr]
    exact h
  | rxnone => exact h
  | rxerr => exact h
  | take => exact h
  | seti roll pitch yaw throttle => cases hi
  | geti => exact h
  | tick => exact tick_keeps_dutyFollowsIntent h

end Sys2Proof.Machine
end

section
/-! PROOFS. The statement about link loss (70_reset_and_hazards.md R241). -/

namespace Sys2Proof.Machine

/-- Settles O34: a run without a SETI consists of events that keep the intent and keep the duty values following it. The
claimed handle is not needed: a TICK that claims writes the same values, and one that fail-stops writes none. -/
theorem noFailsafeCutsTheOutputs : Obligations.NoFailsafeCutsTheOutputs := by
  intro es s t hes h
  have hnone : ∀ i ∈ es, committedIntent i = none := List.filterMap_eq_nil_iff.mp hes
  have hintent : t.intent = s.intent :=
    perform_induction_mem (motive := fun u => u.intent = s.intent)
      (fun i hi u hu => (effectOf_keeps_intent (hnone i hi) u).trans hu) rfl h
  refine ⟨hintent, fun _ hccr => ?_⟩
  have hfollows : DutyFollowsIntent t :=
    perform_induction_mem (fun i hi u hu => effectOf_keeps_dutyFollowsIntent (hnone i hi) hu) hccr h
  rw [hfollows, hintent, hccr]

end Sys2Proof.Machine
end

section
/-! SUPPORT. The fields of an event word and of its payload, taken apart and put together (30_encoding.md R75, R76). -/

namespace Sys2Proof

/-- An event word is its two fields (30_encoding.md R75). -/
@[simp] theorem eventWord_opOf_payloadOf (w : EventWord) : eventWord (opOf w) (payloadOf w) = w :=
  (BitVec.extractLsb'_append_extractLsb'_eq_extractLsb' rfl).trans BitVec.extractLsb'_eq_self

@[simp] theorem opOf_and (v w : EventWord) : opOf (v &&& w) = opOf v &&& opOf w := BitVec.extractLsb'_and

@[simp] theorem payloadOf_and (v w : EventWord) : payloadOf (v &&& w) = payloadOf v &&& payloadOf w :=
  BitVec.extractLsb'_and

/-- The bytes of an intent word are the fields of the intent, roll lowest (30_encoding.md R76). -/
theorem intentWord_bytes (i : Intent) :
    (intentWord i).extractLsb' 0 8 = i.roll ∧ (intentWord i).extractLsb' 8 8 = i.pitch ∧
    (intentWord i).extractLsb' 16 8 = i.yaw ∧ (intentWord i).extractLsb' 24 8 = i.throttle := by
  simp only [intentWord, BitVec.extractLsb'_append_eq_ite]
  simp

/-- The intent that a payload's four bytes spell has that payload as its word (30_encoding.md R76). -/
theorem intentWord_payloadBytes (p : BitVec 32) :
    intentWord ⟨payloadByte p 0, payloadByte p 1, payloadByte p 2, payloadByte p 3⟩ = p := by
  have upper : p.extractLsb' 24 8 ++ p.extractLsb' 16 8 = p.extractLsb' 16 16 :=
    BitVec.extractLsb'_append_extractLsb'_eq_extractLsb' rfl
  have upper' : p.extractLsb' 16 16 ++ p.extractLsb' 8 8 = p.extractLsb' 8 24 :=
    BitVec.extractLsb'_append_extractLsb'_eq_extractLsb' rfl
  calc intentWord ⟨payloadByte p 0, payloadByte p 1, payloadByte p 2, payloadByte p 3⟩
    _ = p.extractLsb' 24 8 ++ p.extractLsb' 16 8 ++ p.extractLsb' 8 8 ++ p.extractLsb' 0 8 := rfl
    _ = p.extractLsb' 8 24 ++ p.extractLsb' 0 8 := by rw [upper, upper']
    _ = p := (BitVec.extractLsb'_append_extractLsb'_eq_extractLsb' rfl).trans BitVec.extractLsb'_eq_self

/-- The payload of RXB is its byte under 24 zero bits (30_encoding.md R76). -/
theorem setWidth_byte_eq_append (b : Byte) : b.setWidth 32 = 0#24 ++ b := BitVec.setWidth_eq_append (by decide)

theorem setWidth_byte_reserved (b : Byte) : (b.setWidth 32).extractLsb' 8 24 = 0 := by
  rw [setWidth_byte_eq_append]
  exact BitVec.extractLsb'_append_eq_left

theorem payloadByte_setWidth_byte (b : Byte) : payloadByte (b.setWidth 32) 0 = b := by
  rw [setWidth_byte_eq_append]
  exact BitVec.extractLsb'_append_eq_right

/-- A payload without reserved bits set is that of its lowest byte. -/
theorem setWidth_payloadByte {p : BitVec 32} (h : p.extractLsb' 8 24 = 0) : (payloadByte p 0).setWidth 32 = p := by
  calc (payloadByte p 0).setWidth 32
    _ = p.extractLsb' 8 24 ++ p.extractLsb' 0 8 := by rw [setWidth_byte_eq_append, h]; rfl
    _ = p := (BitVec.extractLsb'_append_extractLsb'_eq_extractLsb' rfl).trans BitVec.extractLsb'_eq_self

end Sys2Proof
end

section
/-! SUPPORT. The decoder's answer for each kind of opcode, and what an accepted word is made of (30_encoding.md R78 to
R81). -/

namespace Sys2Proof

/-- The events whose payload is all reserved bits (30_encoding.md R75, R79). -/
def operandlessEvents : List Instr := [.rxnone, .rxerr, .take, .geti, .tick]

theorem decode_byteOp {w : EventWord} (h : opOf w = 0x01) : decode w = withByteOperand (payloadOf w) := if_pos h

theorem decode_intentOp {w : EventWord} (h : opOf w = 0x20) : decode w = withIntentOperand (payloadOf w) := by
  simp [decode, h]

theorem decode_operandlessOp {i : Instr} (hi : i ∈ operandlessEvents) {w : EventWord} (h : opOf w = i.opcode) :
    decode w = withoutOperand (payloadOf w) i := by
  simp only [operandlessEvents, List.mem_cons, List.not_mem_nil, or_false] at hi
  rcases hi with rfl | rfl | rfl | rfl | rfl <;> simp [decode, h, Instr.opcode]

/-- The opcode is in no row of the table (30_encoding.md R78). -/
def HasReservedOp (w : EventWord) : Prop :=
  opOf w ≠ 0x01 ∧ opOf w ≠ 0x02 ∧ opOf w ≠ 0x03 ∧ opOf w ≠ 0x10 ∧ opOf w ≠ 0x20 ∧ opOf w ≠ 0x21 ∧ opOf w ≠ 0x30

theorem decode_reservedOp {w : EventWord} (h : HasReservedOp w) : decode w = .error .reservedOp := by
  obtain ⟨h1, h2, h3, h4, h5, h6, h7⟩ := h
  rw [decode, if_neg h1, if_neg h2, if_neg h3, if_neg h4, if_neg h5, if_neg h6, if_neg h7]

/-- Every opcode is that of RXB, of SETI, of an event without operands, or reserved. -/
theorem opOf_cases (w : EventWord) :
    opOf w = 0x01 ∨ opOf w = 0x20 ∨ (∃ i ∈ operandlessEvents, opOf w = i.opcode) ∨ HasReservedOp w := by
  simp only [HasReservedOp, operandlessEvents, List.exists_mem_cons_iff, List.not_mem_nil, false_and, exists_false, or_false,
    Instr.opcode]
  tauto

theorem withByteOperand_eq_ok {p : BitVec 32} {i : Instr} (h : withByteOperand p = .ok i) :
    i.opcode = 0x01 ∧ i.payload = p := by
  rw [withByteOperand] at h
  split at h
  case isTrue hp => cases h; exact ⟨rfl, setWidth_payloadByte hp⟩
  case isFalse => cases h

theorem withIntentOperand_eq_ok {p : BitVec 32} {i : Instr} (h : withIntentOperand p = .ok i) :
    i.opcode = 0x20 ∧ i.payload = p := by
  cases h
  exact ⟨rfl, intentWord_payloadBytes p⟩

theorem withoutOperand_eq_ok {p : BitVec 32} {i j : Instr} (h : withoutOperand p i = .ok j) : p = 0 ∧ j = i := by
  rw [withoutOperand] at h
  split at h
  case isTrue hp => cases h; exact ⟨hp, rfl⟩
  case isFalse => cases h

theorem payload_of_operandless {i : Instr} (hi : i ∈ operandlessEvents) : i.payload = 0 := by
  simp only [operandlessEvents, List.mem_cons, List.not_mem_nil, or_false] at hi
  rcases hi with rfl | rfl | rfl | rfl | rfl <;> rfl

/-- The fields of an accepted word are those of its event. -/
theorem decode_eq_ok {w : EventWord} {i : Instr} (h : decode w = .ok i) : opOf w = i.opcode ∧ payloadOf w = i.payload := by
  obtain hop | hop | ⟨j, hj, hop⟩ | hop := opOf_cases w
  · rw [decode_byteOp hop] at h
    obtain ⟨hopcode, hpayload⟩ := withByteOperand_eq_ok h
    exact ⟨hop.trans hopcode.symm, hpayload.symm⟩
  · rw [decode_intentOp hop] at h
    obtain ⟨hopcode, hpayload⟩ := withIntentOperand_eq_ok h
    exact ⟨hop.trans hopcode.symm, hpayload.symm⟩
  · rw [decode_operandlessOp hj hop] at h
    obtain ⟨hpayload, rfl⟩ := withoutOperand_eq_ok h
    exact ⟨hop, hpayload.trans (payload_of_operandless hj).symm⟩
  · rw [decode_reservedOp hop] at h
    cases h

@[simp] theorem opOf_encode (i : Instr) : opOf (encode i) = i.opcode := opOf_eventWord _ _

@[simp] theorem payloadOf_encode (i : Instr) : payloadOf (encode i) = i.payload := payloadOf_eventWord _ _

theorem decode_encode_operandless {i : Instr} (hi : i ∈ operandlessEvents) : decode (encode i) = .ok i := by
  rw [decode_operandlessOp hi (opOf_encode i), payloadOf_encode, payload_of_operandless hi]
  rfl

/-- Decoding inverts encoding: each event's operands stand in the payload where the decoder reads them. -/
@[simp] theorem decode_encode (i : Instr) : decode (encode i) = .ok i := by
  cases i with
  | rxb b =>
    rw [decode_byteOp (opOf_encode _), payloadOf_encode, Instr.payload, withByteOperand, if_pos (setWidth_byte_reserved b),
      payloadByte_setWidth_byte]
  | seti roll pitch yaw throttle =>
    obtain ⟨hroll, hpitch, hyaw, hthrottle⟩ := intentWord_bytes ⟨roll, pitch, yaw, throttle⟩
    rw [decode_intentOp (opOf_encode _), payloadOf_encode, Instr.payload]
    simp only [withIntentOperand, payloadByte, Nat.reduceMul, hroll, hpitch, hyaw, hthrottle]
  | rxnone => exact decode_encode_operandless (by decide)
  | rxerr => exact decode_encode_operandless (by decide)
  | take => exact decode_encode_operandless (by decide)
  | geti => exact decode_encode_operandless (by decide)
  | tick => exact decode_encode_operandless (by decide)

/-- Encoding inverts decoding: the word is put together again from the event's fields. -/
theorem encode_of_decode {w : EventWord} {i : Instr} (h : decode w = .ok i) : encode i = w := by
  obtain ⟨hop, hpayload⟩ := decode_eq_ok h
  rw [encode, ← hop, ← hpayload, eventWord_opOf_payloadOf]

end Sys2Proof
end

section
/-! SUPPORT. The rows of the opcode table against the decoder (30_encoding.md R75, R80). -/

namespace Sys2Proof

/-- An event's word is covered by the event's row: the law of each event, for all events. -/
theorem row_covers_encode (i : Instr) : i.row.covers (encode i) = true := by
  cases i with
  | rxb b => exact Laws.EncodingFitsRow.rxb b
  | rxnone => exact Laws.EncodingFitsRow.rxnone
  | rxerr => exact Laws.EncodingFitsRow.rxerr
  | take => exact Laws.EncodingFitsRow.take
  | seti roll pitch yaw throttle => exact Laws.EncodingFitsRow.seti roll pitch yaw throttle
  | geti => exact Laws.EncodingFitsRow.geti
  | tick => exact Laws.EncodingFitsRow.tick

theorem row_mem_eventRows (i : Instr) : i.row ∈ eventRows := by
  cases i <;> simp [Instr.row, eventRows]

/-- A row covers a word when both fields of the word do so. -/
theorem covers_fields {r : EventRow} {w : EventWord} (h : r.covers w = true) :
    opOf w &&& opOf r.mask = opOf r.pattern ∧ payloadOf w &&& payloadOf r.mask = payloadOf r.pattern := by
  have hw : w &&& r.mask = r.pattern := beq_iff_eq.mp h
  exact ⟨by rw [← hw, opOf_and], by rw [← hw, payloadOf_and]⟩

/-- Every row's mask takes in the whole opcode. -/
theorem opOf_of_covers {r : EventRow} (hr : r ∈ eventRows) {w : EventWord} (h : r.covers w = true) :
    opOf w = opOf r.pattern := by
  have hmask : ∀ r ∈ eventRows, opOf r.mask = BitVec.allOnes 8 := by decide
  obtain ⟨hop, -⟩ := covers_fields h
  rwa [hmask r hr, BitVec.and_allOnes] at hop

/-- A row whose mask is the whole word covers its pattern only. -/
theorem eq_pattern_of_covers {r : EventRow} (hmask : r.mask = BitVec.allOnes 40) {w : EventWord}
    (h : r.covers w = true) : w = r.pattern := by
  have hw : w &&& r.mask = r.pattern := beq_iff_eq.mp h
  rwa [hmask, BitVec.and_allOnes] at hw

/-- RXB's row leaves the lowest byte of the payload free and no other bit of it. -/
theorem reserved_of_rxb_covers {w : EventWord} (h : (Instr.row (.rxb 0)).covers w = true) :
    (payloadOf w).extractLsb' 8 24 = 0 := by
  have hmask : (payloadOf (Instr.row (.rxb 0)).mask).extractLsb' 8 24 = BitVec.allOnes 24 := by decide
  obtain ⟨-, hpayload⟩ := covers_fields h
  calc (payloadOf w).extractLsb' 8 24
    _ = (payloadOf w &&& payloadOf (Instr.row (.rxb 0)).mask).extractLsb' 8 24 := by
      rw [BitVec.extractLsb'_and, hmask, BitVec.and_allOnes]
    _ = (payloadOf (Instr.row (.rxb 0)).pattern).extractLsb' 8 24 := by rw [hpayload]
    _ = 0 := by decide

/-- A row leaves RXB's byte free, or SETI's payload, or nothing; what it covers in the last case is one event's word. -/
theorem eventRows_cases {r : EventRow} (hr : r ∈ eventRows) :
    r = Instr.row (.rxb 0) ∨ r = Instr.row (.seti 0 0 0 0) ∨
    (r.mask = BitVec.allOnes 40 ∧ ∃ i, decode r.pattern = .ok i) := by
  simp only [eventRows, List.mem_cons, List.not_mem_nil, or_false] at hr
  rcases hr with rfl | rfl | rfl | rfl | rfl | rfl | rfl
  · exact .inl rfl
  · exact .inr (.inr ⟨by decide, .rxnone, rfl⟩)
  · exact .inr (.inr ⟨by decide, .rxerr, rfl⟩)
  · exact .inr (.inr ⟨by decide, .take, rfl⟩)
  · exact .inr (.inl rfl)
  · exact .inr (.inr ⟨by decide, .geti, rfl⟩)
  · exact .inr (.inr ⟨by decide, .tick, rfl⟩)

/-- What a row covers decodes. -/
theorem decode_ok_of_covers {r : EventRow} (hr : r ∈ eventRows) {w : EventWord} (h : r.covers w = true) :
    ∃ i, decode w = .ok i := by
  have hop := opOf_of_covers hr h
  obtain rfl | rfl | ⟨hmask, i, hi⟩ := eventRows_cases hr
  · have hreserved : (payloadOf w).extractLsb' 8 24 = 0 := reserved_of_rxb_covers h
    exact ⟨_, by rw [decode_byteOp (hop.trans (by decide)), withByteOperand, if_pos hreserved]⟩
  · exact ⟨_, decode_intentOp (hop.trans (by decide))⟩
  · exact ⟨i, eq_pattern_of_covers hmask h ▸ hi⟩

end Sys2Proof
end

section
/-! PROOFS. The statements about event words (30_encoding.md R75 to R81, R84). -/

namespace Sys2Proof

/-- Settles O4: each event's operands stand where the decoder reads them. -/
theorem decodeInvertsEncode : Obligations.DecodeInvertsEncode := decode_encode

/-- Settles O5: the decoder accepts a word only when all its bits are the event's. -/
theorem encodeInvertsDecode : Obligations.EncodeInvertsDecode := fun _ _ => encode_of_decode

/-- Settles O6: an accepted word is its event's own word, which the event's row covers; and what a row covers decodes. -/
theorem everyWordIsAnEventOrARefusal : Obligations.EveryWordIsAnEventOrARefusal := by
  intro w
  have hcovered : ∀ i, decode w = .ok i → i.row.covers w = true := fun i hi =>
    encode_of_decode hi ▸ row_covers_encode i
  refine ⟨?_, fun ⟨i, hi⟩ => ?_, fun hw => ?_⟩
  · match hd : decode w with
    | .ok i => exact .inl ⟨i, rfl, row_mem_eventRows i, hcovered i hd⟩
    | .error .reservedOp => exact .inr (.inl rfl)
    | .error .reservedBits => exact .inr (.inr rfl)
  · exact List.any_eq_true.mpr ⟨i.row, row_mem_eventRows i, hcovered i hi⟩
  · obtain ⟨r, hr, hcovers⟩ := List.any_eq_true.mp hw
    exact decode_ok_of_covers hr hcovers

/-- Settles O7: a row fixes the whole opcode of what it covers, and no two rows have one opcode. -/
theorem tableRowsDoNotOverlap : Obligations.TableRowsDoNotOverlap := by
  intro w r r' hr hr' h h'
  have hop : opOf r.pattern = opOf r'.pattern := (opOf_of_covers hr h).symm.trans (opOf_of_covers hr' h')
  have distinct : ∀ r ∈ eventRows, ∀ r' ∈ eventRows, opOf r.pattern = opOf r'.pattern → r = r' := by decide
  exact distinct r hr r' hr' hop

/-- Settles O3, one example word after the other. -/
theorem exampleWordsAsInR84 : Obligations.ExampleWordsAsInR84 := by
  unfold Obligations.ExampleWordsAsInR84
  decide

end Sys2Proof

namespace Sys2Proof.Machine

/-- Settles O8: the step refuses what the decoder refuses, before it looks at the state. -/
theorem reservedWordsRefusedByReason : Obligations.ReservedWordsRefusedByReason := by
  intro s w rest hp
  refine ⟨fun hop => step_refuses hp (decode_reservedOp hop), fun hop hbits => ?_, fun hop hbits => ?_, fun hop => ?_⟩
  · exact step_refuses (r := .reservedBits) hp (by rw [decode_byteOp hop, withByteOperand, if_neg hbits])
  · obtain ⟨i, hi, hiop⟩ : ∃ i ∈ operandlessEvents, opOf w = i.opcode := by
      simpa only [operandlessEvents, List.exists_mem_cons_iff, List.not_mem_nil, false_and, exists_false, or_false,
        Instr.opcode] using hop
    exact step_refuses (r := .reservedBits) hp (by rw [decode_operandlessOp hi hiop, withoutOperand, if_neg hbits])
  · exact ⟨_, _, _, _, decode_intentOp hop⟩

end Sys2Proof.Machine
end

section
/-! SUPPORT. The bytes and fields of the port words (30_encoding.md R77; 20_memory.md R53). -/

namespace Sys2Proof.Machine

/-- Byte k of a frame word is byte k of the frame (20_memory.md R53). -/
@[simp] theorem frameWord_byte (f : Frame) (k : Fin 6) : (frameWord f).extractLsb' (8 * k.val) 8 = f[k] := by
  fin_cases k <;> simp only [frameWord, BitVec.extractLsb'_append_eq_ite] <;> simp

@[simp] theorem frameOfWord_frameWord (f : Frame) : frameOfWord (frameWord f) = f := by
  ext k hk : 1
  calc (frameOfWord (frameWord f))[(⟨k, hk⟩ : Fin 6)]
    _ = (frameWord f).extractLsb' (8 * k) 8 := frameOf_get (fun j => (frameWord f).extractLsb' (8 * j.val) 8) ⟨k, hk⟩
    _ = f[(⟨k, hk⟩ : Fin 6)] := frameWord_byte f ⟨k, hk⟩

/-- The response's bit 48 is `valid` (30_encoding.md R77). -/
@[simp] theorem takeWord_some_valid (f : Frame) : (takeWord (some f)).getLsbD 48 = true := by
  rw [takeWord, BitVec.getLsbD_append]
  rfl

@[simp] theorem takeWord_some_frameWord (f : Frame) : (takeWord (some f)).extractLsb' 0 48 = frameWord f :=
  BitVec.extractLsb'_append_eq_right

theorem takeWord_some_byte (f : Frame) (k : Fin 6) : (takeWord (some f)).extractLsb' (8 * k.val) 8 = f[k] := by
  rw [takeWord, BitVec.extractLsb'_append_eq_of_add_le (by omega), frameWord_byte]

/-- The host reads the packed response back: the frame by its bytes, or none by the clear `valid` bit. -/
@[simp] theorem frameOfTakeWord_takeWord (o : Option Frame) : frameOfTakeWord (takeWord o) = o := by
  cases o with
  | none => rfl
  | some f => rw [frameOfTakeWord, if_pos (takeWord_some_valid f), takeWord_some_frameWord, frameOfWord_frameWord]

/-- Channel ch of a DUTY word is channel ch of the vector (30_encoding.md R77). -/
theorem dutyWord_channel (d : DutyVector) (ch : Fin 4) : (dutyWord d).extractLsb' (16 * ch.val) 16 = d[ch] := by
  fin_cases ch <;> simp only [dutyWord, BitVec.extractLsb'_append_eq_ite] <;> simp

/-- The status word is `halted` over `fault_code` (30_encoding.md R77). -/
theorem statusWord_halted (s : State) : (statusWord s).getLsbD 8 = s.halted := by
  rw [statusWord, BitVec.getLsbD_append]
  simp

theorem statusWord_faultCode (s : State) : (statusWord s).extractLsb' 0 8 = s.faultCode :=
  BitVec.extractLsb'_append_eq_right

end Sys2Proof.Machine
end

section
/-! PROOFS. The statements about the port words (30_encoding.md R76, R77; 20_memory.md R53). -/

namespace Sys2Proof.Machine

/-- Settles O9, one port word after the other. -/
theorem portWordsHaveTheirLayout : Obligations.PortWordsHaveTheirLayout :=
  ⟨fun f k => ⟨takeWord_some_valid f, takeWord_some_byte f k⟩, rfl, intentWord_bytes, dutyWord_channel,
    fun s => ⟨statusWord_halted s, statusWord_faultCode s⟩⟩

/-- Settles O10: what the host unpacks is what the block packed. -/
theorem takeResponseReadsBack : Obligations.TakeResponseReadsBack := frameOfTakeWord_takeWord

end Sys2Proof.Machine
end

section
/-! SUPPORT. CONVERT over the naturals (43_duty.md R174). -/

namespace Sys2Proof.Machine

/-- The clamp keeps CONVERT within 16 bits, so the naturals' value is the register's (43_duty.md R174). -/
theorem convert_toNat (period : Nat) (pulse maxDuty : BitVec 16) :
    (convert period pulse maxDuty).toNat = min (pulse.toNat * maxDuty.toNat / period) maxDuty.toNat := by
  have hfits : min (pulse.toNat * maxDuty.toNat / period) maxDuty.toNat < 2 ^ 16 :=
    lt_of_le_of_lt (min_le_right _ _) maxDuty.isLt
  rw [convert, BitVec.toNat_ofNat, Nat.mod_eq_of_lt hfits]

/-- The product of two 16-bit values needs 32 bits at most (92_eei_decisions.md D8). -/
theorem toNat_mul_toNat_lt (a b : BitVec 16) : a.toNat * b.toNat < 2 ^ 32 :=
  calc a.toNat * b.toNat
    _ < 2 ^ 16 * 2 ^ 16 := Nat.mul_lt_mul'' a.isLt b.isLt
    _ = 2 ^ 32 := rfl

theorem convert_le_maxDuty (period : Nat) (pulse maxDuty : BitVec 16) : convert period pulse maxDuty ≤ maxDuty := by
  rw [BitVec.le_def, convert_toNat]
  exact min_le_right _ _

/-- From a full period on CONVERT saturates (43_duty.md R175). -/
theorem convert_of_period_le {period : Nat} {pulse : BitVec 16} (hperiod : 1 ≤ period) (h : period ≤ pulse.toNat)
    (maxDuty : BitVec 16) : convert period pulse maxDuty = maxDuty := by
  have hquotient : maxDuty.toNat ≤ pulse.toNat * maxDuty.toNat / period :=
    (Nat.le_div_iff_mul_le hperiod).mpr (Nat.mul_comm maxDuty.toNat period ▸ Nat.mul_le_mul_right _ h)
  exact BitVec.eq_of_toNat_eq (by rw [convert_toNat, min_eq_right hquotient])

/-- Below the period CONVERT is the truncated quotient: the clamp does nothing (43_duty.md R175). -/
theorem convert_toNat_of_lt_period {period : Nat} {pulse : BitVec 16} (h : pulse.toNat < period)
    (maxDuty : BitVec 16) : (convert period pulse maxDuty).toNat = pulse.toNat * maxDuty.toNat / period := by
  have hquotient : pulse.toNat * maxDuty.toNat / period ≤ maxDuty.toNat :=
    Nat.div_le_of_le_mul (Nat.mul_le_mul_right _ h.le)
  rw [convert_toNat, min_eq_left hquotient]

theorem convert_zero_pulse (period : Nat) (maxDuty : BitVec 16) : convert period 0 maxDuty = 0 := by
  simp [convert]

theorem convert_zero_maxDuty (period : Nat) (pulse : BitVec 16) : convert period pulse 0 = 0 := by
  simp [convert]

/-- CONVERT does not decrease in the pulse (43_duty.md R175). -/
theorem convert_mono (period : Nat) {pulse pulse' : BitVec 16} (h : pulse ≤ pulse') (maxDuty : BitVec 16) :
    convert period pulse maxDuty ≤ convert period pulse' maxDuty := by
  rw [BitVec.le_def, convert_toNat, convert_toNat]
  exact min_le_min_right _ (Nat.div_le_div_right (Nat.mul_le_mul_right _ h))

end Sys2Proof.Machine
end

section
/-! PROOFS. The statements about CONVERT (43_duty.md R174, R175). -/

namespace Sys2Proof.Machine

/-- Settles O28: the clamp keeps the result within its width, and the product fits 32 bits. -/
theorem convertIsExact : Obligations.ConvertIsExact := fun period pulse maxDuty _ =>
  ⟨convert_toNat period pulse maxDuty, toNat_mul_toNat_lt pulse maxDuty⟩

/-- Settles O29: the five properties, each from the value over the naturals. -/
theorem convertHasItsFiveProperties : Obligations.ConvertHasItsFiveProperties :=
  fun period pulse _ maxDuty hperiod =>
    ⟨convert_le_maxDuty period pulse maxDuty, fun h => convert_of_period_le hperiod h maxDuty,
      fun h => convert_toNat_of_lt_period h maxDuty,
      ⟨convert_zero_pulse period maxDuty, convert_zero_maxDuty period pulse⟩, fun h => convert_mono period h maxDuty⟩

end Sys2Proof.Machine
end

section
/-! SUPPORT. RX works on `cursor`, `buf`, `slot` and `ready` alone, and TMR on none of them (40_receiver.md R100;
60_exceptions.md R212). -/

namespace Sys2Proof.Machine

/-- The state `s` with the four elements that RX writes taken from `r`. -/
def State.withReceiver (s r : State) : State :=
  { s with cursor := r.cursor, buf := r.buf, slot := r.slot, ready := r.ready }

@[simp] theorem State.withReceiver_self (s : State) : s.withReceiver s = s := rfl

/-- A received byte acts on RX's elements, whatever the others hold (40_receiver.md R101). -/
theorem receiveByte_withReceiver (b : Byte) (s r : State) :
    receiveByte b (s.withReceiver r) = s.withReceiver (receiveByte b r) := by
  obtain ⟨hc, hb, h⟩ | ⟨rfl, h⟩ | ⟨hroom, hc, hb, h⟩ | ⟨hc, hb, h⟩ := receiveByte_cases b r
  · rw [h]; exact receiveByte_discard hc hb
  · rw [h]; exact receiveByte_marker _
  · rw [h]; exact receiveByte_advance (s := s.withReceiver r) hc hb hroom
  · rw [h]; exact receiveByte_complete hc hb

/-- Every RX event acts on RX's elements, whatever the others hold (40_receiver.md R100). -/
theorem effectOf_rx_withReceiver {i : Instr} (hi : i.agent = .rx) (s r : State) :
    effectOf i (s.withReceiver r) = s.withReceiver (effectOf i r) := by
  cases i with
  | rxb b => exact receiveByte_withReceiver b s r
  | rxnone => rfl
  | rxerr => rfl
  | _ => cases hi

/-- An RX event leaves every element but RX's four as it is. -/
theorem effectOf_rx_frame {i : Instr} (hi : i.agent = .rx) (s : State) :
    effectOf i s = s.withReceiver (effectOf i s) := effectOf_rx_withReceiver hi s s

/-- A TICK acts on the rest of the state, whatever RX's elements hold (43_duty.md R170). -/
theorem tick_withReceiver (c : Config) (s r : State) : tick c (s.withReceiver r) = (tick c s).withReceiver r := by
  have hclaimed : (s.withReceiver r).claimed = s.claimed := rfl
  have hholder : (s.withReceiver r).holderFull = s.holderFull := rfl
  rw [tick, tick, hclaimed, hholder]
  split_ifs <;> rfl

end Sys2Proof.Machine
end

section
/-! SUPPORT. No event reads or writes the waiting words (log 1). -/

namespace Sys2Proof.Machine

@[simp] theorem receiveByte_setPending (b : Byte) (s : State) (ws : List EventWord) :
    receiveByte b (s.setPending ws) = (receiveByte b s).setPending ws := by
  calc receiveByte b (s.setPending ws)
    _ = (s.setPending ws).withReceiver (receiveByte b s) := receiveByte_withReceiver b (s.setPending ws) s
    _ = (s.withReceiver (receiveByte b s)).setPending ws := rfl
    _ = (receiveByte b s).setPending ws := by rw [← receiveByte_withReceiver, State.withReceiver_self]

@[simp] theorem tick_setPending (c : Config) (s : State) (ws : List EventWord) :
    tick c (s.setPending ws) = (tick c s).setPending ws := by
  rw [tick, tick, State.setPending_claimed, State.setPending_holderFull]
  split_ifs <;> rfl

theorem effectOf_setPending (i : Instr) (s : State) (ws : List EventWord) :
    effectOf i (s.setPending ws) = (effectOf i s).setPending ws := by
  cases i with
  | rxb b => exact receiveByte_setPending b s ws
  | rxnone => rfl
  | rxerr => rfl
  | take => rfl
  | seti roll pitch yaw throttle => rfl
  | geti => rfl
  | tick => exact tick_setPending _ s ws

@[simp] theorem effectOf_pending (i : Instr) (s : State) : (effectOf i s).pending = s.pending := by
  have hown : effectOf i s = (effectOf i s).setPending s.pending := effectOf_setPending i s s.pending
  rw [hown, State.setPending_pending]

/-- Whatever words wait, an event of a running block has its effect, and they wait still. -/
theorem exec_setPending_running {s : State} (hs : s.halted = false) (i : Instr) (ws : List EventWord) :
    exec i (s.setPending ws) = .next ((effectOf i s).setPending ws) := by
  have hrun : (s.setPending ws).halted = false := hs
  rw [exec_running hrun, effectOf_setPending]

/-- A step on an event's own word performs the event and takes the word off the port. -/
theorem step_encode (i : Instr) (s : State) (ws : List EventWord) :
    step (s.setPending (encode i :: ws)) = exec i (s.setPending ws) := step_event rfl (decode_encode i)

end Sys2Proof.Machine
end

section
/-! PROOFS. The statements that tie steps and runs of steps to events (60_exceptions.md R208; 20_memory.md R61). -/

namespace Sys2Proof.Machine

/-- The words of the events are performed one by one: a step takes the first, and its event leaves the others alone. -/
theorem run_encoded (es : List Instr) (s : State) :
    Sys2Proof.core.run es.length (s.setPending (es.map encode ++ s.pending)) = perform es s := by
  induction es generalizing s with
  | nil => exact run_zero s
  | cons i es ih =>
    have hstep : step (s.setPending ((i :: es).map encode ++ s.pending)) =
        exec i (s.setPending (es.map encode ++ s.pending)) := step_encode i s _
    cases hs : s.halted
    · rw [exec_setPending_running hs] at hstep
      rw [perform_cons_running hs, ← ih (effectOf i s), effectOf_pending]
      exact run_succ_next hstep
    · have hhalted : (s.setPending (es.map encode ++ s.pending)).halted = true := hs
      rw [exec_halted hhalted] at hstep
      rw [perform_cons_halted hs]
      exact run_succ_fault hstep

/-- Settles O12: the state with the words put in front of its own is the one `run_encoded` starts from. -/
theorem steppingEncodedEventsPerformsThem : Obligations.SteppingEncodedEventsPerformsThem := run_encoded

/-- Settles O11: the first word decides, and without one nothing happens. -/
theorem stepPerformsTheDecodedEvent : Obligations.StepPerformsTheDecodedEvent :=
  ⟨fun _ _ _ _ => step_event, fun _ => step_idle⟩

end Sys2Proof.Machine
end

section
/-! PROOFS. The statements about RX and what it shares with the other agents (40_receiver.md R100; 60_exceptions.md
R212). -/

namespace Sys2Proof.Machine

/-- Settles O17: the second state is itself with RX's elements of the first, and RX acts on those alone. -/
theorem receiverKeepsToItsOwnState : Obligations.ReceiverKeepsToItsOwnState := by
  intro i s t s' t' hi h h'
  obtain ⟨-, rfl⟩ := exec_eq_next h
  obtain ⟨-, rfl⟩ := exec_eq_next h'
  refine ⟨effectOf_rx_frame hi s, fun hcursor hbuf hslot hready => ?_⟩
  have hs' : s' = s'.withReceiver s := by
    rw [State.withReceiver, hcursor, hbuf, hslot, hready]
  have heffect : effectOf i s' = s'.withReceiver (effectOf i s) := by
    rw [← effectOf_rx_withReceiver hi, ← hs']
  rw [heffect]
  exact ⟨rfl, rfl, rfl, rfl⟩

/-- Settles O40: in either order the state is that of the TICK with RX's elements those of the RX event. -/
theorem receiverAndTickCommute : Obligations.ReceiverAndTickCommute := by
  intro s i hi hclaim
  cases hs : s.halted
  case true => rw [perform_cons_halted hs, perform_cons_halted hs]
  have hrx : (effectOf i s).halted = false := by rw [effectOf_rx_frame hi s]; exact hs
  have htick : (effectOf .tick s).halted = false := (effectOf_keeps_fault_state (.inr hclaim)).1.trans hs
  have htick_rx : effectOf .tick (effectOf i s) = (effectOf .tick s).withReceiver (effectOf i s) := by
    calc effectOf .tick (effectOf i s)
      _ = effectOf .tick (s.withReceiver (effectOf i s)) := by rw [← effectOf_rx_frame hi s]
      _ = (effectOf .tick s).withReceiver (effectOf i s) := tick_withReceiver _ s _
  have hrx_tick : effectOf i (effectOf .tick s) = (effectOf .tick s).withReceiver (effectOf i s) := by
    calc effectOf i (effectOf .tick s)
      _ = effectOf i ((effectOf .tick s).withReceiver s) := by
        rw [show (effectOf .tick s).withReceiver s = effectOf .tick s from (tick_withReceiver _ s s).symm]
      _ = (effectOf .tick s).withReceiver (effectOf i s) := effectOf_rx_withReceiver hi _ s
  calc perform [i, .tick] s
    _ = perform [] (effectOf .tick (effectOf i s)) := by rw [perform_cons_running hs, perform_cons_running hrx]
    _ = perform [] (effectOf i (effectOf .tick s)) := by rw [htick_rx, hrx_tick]
    _ = perform [.tick, i] s := by rw [perform_cons_running hs, perform_cons_running htick]

end Sys2Proof.Machine
end

section
/-! SUPPORT. What each agent leaves as it is (10_state.md R20, R31), and the outputs, which only grow (log 2). -/

namespace Sys2Proof.Machine

/-- A HOST event writes `ready`, the intent and the record of answers at most (41_handoff.md R132; 42_intent.md R150,
R151). -/
theorem effectOf_host_frame {i : Instr} (hi : i.agent = .host) (s : State) :
    effectOf i s =
      { s with
        ready := (effectOf i s).ready
        intent := (effectOf i s).intent
        outputs := (effectOf i s).outputs } := by
  cases i with
  | take => rfl
  | seti roll pitch yaw throttle => rfl
  | geti => rfl
  | _ => cases hi

/-- TICK is TMR's only event (30_encoding.md R75). -/
theorem eq_tick_of_agent_tmr {i : Instr} (hi : i.agent = .tmr) : i = .tick := by
  cases i with
  | tick => rfl
  | _ => cases hi

/-- TMR's event keeps RX's elements (43_duty.md R170). -/
theorem effectOf_tmr_frame {i : Instr} (hi : i.agent = .tmr) (s : State) :
    effectOf i s = (effectOf i s).withReceiver s := by
  obtain rfl := eq_tick_of_agent_tmr hi
  exact tick_withReceiver _ s s

theorem effectOf_tmr_intent {i : Instr} (hi : i.agent = .tmr) (s : State) : (effectOf i s).intent = s.intent := by
  obtain rfl := eq_tick_of_agent_tmr hi
  exact tick_intent _ s

/-- No row of RXB's table clears `ready` (10_state.md R25). -/
theorem receiveByte_keeps_ready {b : Byte} {s : State} (hready : s.ready = true) : (receiveByte b s).ready = true := by
  obtain ⟨-, -, h⟩ | ⟨-, h⟩ | ⟨hroom, -, -, h⟩ | ⟨-, -, h⟩ := receiveByte_cases b s
  · rw [h]; exact hready
  · rw [h]; exact hready
  · rw [h]; exact hready
  · rw [h]; rfl

theorem effectOf_rx_keeps_ready {i : Instr} (hi : i.agent = .rx) {s : State} (hready : s.ready = true) :
    (effectOf i s).ready = true := by
  cases i with
  | rxb b => exact receiveByte_keeps_ready hready
  | rxnone => exact hready
  | rxerr => exact hready
  | _ => cases hi

/-- A HOST event does not set `ready` (10_state.md R25). -/
theorem ready_of_effectOf_host_ready {i : Instr} (hi : i.agent = .host) {s : State} (h : (effectOf i s).ready = true) :
    s.ready = true := by
  cases i with
  | take => cases h
  | seti roll pitch yaw throttle => exact h
  | geti => exact h
  | _ => cases hi

/-- A TICK answers one DUTY word, or nothing when it fail-stops (30_encoding.md R77; log 2). -/
theorem tick_outputs_prefix (c : Config) (s : State) : s.outputs <+: (tick c s).outputs := by
  obtain ⟨-, h⟩ | ⟨-, -, h⟩ | ⟨-, -, h⟩ := tick_cases c s
  · rw [h]; exact List.prefix_append _ _
  · rw [h]; exact List.prefix_append _ _
  · rw [h]; exact List.prefix_rfl

theorem effectOf_outputs_prefix (i : Instr) (s : State) : s.outputs <+: (effectOf i s).outputs := by
  cases i with
  | rxb b => rw [effectOf_rx_frame rfl s]; exact List.prefix_rfl
  | rxnone => exact List.prefix_rfl
  | rxerr => exact List.prefix_rfl
  | take => exact List.prefix_append _ _
  | seti roll pitch yaw throttle => exact List.prefix_rfl
  | geti => exact List.prefix_append _ _
  | tick => exact tick_outputs_prefix _ s

end Sys2Proof.Machine
end

section
/-! PROOFS. The statements about every event: it completes while the block runs, and it keeps to its agent's elements
(60_exceptions.md R200; 10_state.md R20, R31). -/

namespace Sys2Proof.Machine

/-- Settles O13: the next state is the event's effect. -/
theorem everyEventCompletesWhileRunning : Obligations.EveryEventCompletesWhileRunning := fun i s hs =>
  ⟨effectOf i s, exec_running hs i, effectOf_pending i s, effectOf_outputs_prefix i s⟩

/-- Settles O39, agent by agent: what an agent does not own is outside its events' frame. -/
theorem elementsWrittenOnlyByTheirOwner : Obligations.ElementsWrittenOnlyByTheirOwner := by
  intro i s t h
  obtain ⟨-, rfl⟩ := exec_eq_next h
  refine ⟨fun hnotRx => ?_, fun hrx hready => effectOf_rx_keeps_ready hrx hready,
    fun hhost hready => ready_of_effectOf_host_ready hhost hready, fun htmr => ?_, fun hnotHost => ?_, fun hnotTmr => ?_⟩
  · cases hi : i.agent
    case rx => exact absurd hi hnotRx
    case host => rw [effectOf_host_frame hi s]; exact ⟨rfl, rfl, rfl⟩
    case tmr => rw [effectOf_tmr_frame hi s]; exact ⟨rfl, rfl, rfl⟩
  · rw [effectOf_tmr_frame htmr s]; rfl
  · cases hi : i.agent
    case rx => rw [effectOf_rx_frame hi s]; rfl
    case host => exact absurd hi hnotHost
    case tmr => exact effectOf_tmr_intent hi s
  · cases hi : i.agent
    case rx => rw [effectOf_rx_frame hi s]; exact ⟨rfl, rfl, rfl, rfl, rfl⟩
    case host => rw [effectOf_host_frame hi s]; exact ⟨rfl, rfl, rfl, rfl, rfl⟩
    case tmr => exact absurd hi hnotTmr

end Sys2Proof.Machine
end

section
/-! SUPPORT. Every event keeps the invariant (40_receiver.md R108; 10_state.md R29, R30; 43_duty.md R180). -/

namespace Sys2Proof.Machine

/-! The fields that the invariant does not speak of -/

theorem Inv.setPending {s : State} (h : Inv s) (ws : List EventWord) : Inv (s.setPending ws) :=
  { h with }

theorem Inv.setIntent {s : State} (h : Inv s) (i : Intent) : Inv (s.setIntent i) :=
  { h with }

theorem Inv.respond {s : State} (h : Inv s) (o : Output) : Inv (s.respond o) :=
  { h with }

/-- With `ready` clear there is no frame that TAKE could return. -/
theorem Inv.clearReady {s : State} (h : Inv s) : Inv (s.setReady false) :=
  { h with slot_frame := fun hready => absurd hready Bool.false_ne_true }

/-! RXB -/

/-- Storing a data byte behind the data bytes of a partial frame makes one data byte more. -/
theorem data_of_set {buf : Frame} {c : Fin 6} {b : Byte} (hb : b ≠ marker)
    (hdata : ∀ k : Fin 6, k ≠ 0 → k < c → buf[k] ≠ marker) {k : Fin 6} (hk : k ≠ 0) (hle : k ≤ c) :
    (buf.set c b)[k] ≠ marker := by
  by_cases hkc : k = c
  · subst hkc; simpa using hb
  · have hne : c.val ≠ k.val := fun h => hkc (Fin.ext h.symm)
    simpa [Vector.getElem_set_ne _ _ hne] using hdata k hk (lt_of_le_of_ne hle hkc)

/-- Storing a byte behind the marker leaves the marker in place. -/
theorem marker_of_set {buf : Frame} {c : Fin 6} (hc : c ≠ 0) (b : Byte) (hmarker : buf[0] = marker) :
    (buf.set c b)[0] = marker := by
  have hne : c.val ≠ 0 := fun h => hc (Fin.ext h)
  rwa [Vector.getElem_set_ne _ _ hne]

theorem receiveByte_keeps_inv (b : Byte) {s : State} (h : Inv s) : Inv (receiveByte b s) := by
  obtain ⟨-, -, heq⟩ | ⟨-, heq⟩ | ⟨hroom, hc, hb, heq⟩ | ⟨hc, hb, heq⟩ := receiveByte_cases b s <;> rw [heq]
  · exact h
  · exact { h with
      partial_marker := fun _ => Vector.getElem_set_self _
      partial_data := fun k hk hlt => absurd (Fin.lt_one_iff k |>.mp hlt) hk }
  · exact { h with
      partial_marker := fun _ => marker_of_set hc b (h.partial_marker hc)
      partial_data := fun k hk hlt => data_of_set hb h.partial_data hk (Nat.lt_succ_iff.mp hlt) }
  · have hpartial : s.cursor ≠ 0 := by simp [hc]
    exact { h with
      partial_marker := fun hne => absurd rfl hne
      partial_data := fun k _ hlt => absurd hlt (Fin.not_lt_zero k)
      slot_frame := fun _ => ⟨marker_of_set (by decide) b (h.partial_marker hpartial),
        fun k hk => data_of_set hb (hc ▸ h.partial_data) hk (Fin.le_last k)⟩ }

/-! TICK -/

/-- After the duty write channel ch holds its duty value and is written (43_duty.md R176). -/
@[simp] theorem writeDuty_ccr_get (c : Config) (s : State) (ch : Fin 4) :
    (writeDuty c s).ccr[ch] = { value := (motorDuty c s.intent)[ch], written := true } := perChannel_get _ ch

theorem motorDuty_le_maxDuty (c : Config) (i : Intent) (ch : Fin 4) : (motorDuty c i)[ch] ≤ c.maxDuty[ch] := by
  rw [motorDuty_get]
  exact convert_le_maxDuty _ _ _

theorem writeDuty_ccr_bounded (c : Config) (s : State) (ch : Fin 4) :
    (writeDuty c s).ccr[ch].value ≤ c.maxDuty[ch] := by
  rw [writeDuty_ccr_get]
  exact motorDuty_le_maxDuty c s.intent ch

theorem tick_keeps_inv {s : State} (h : Inv s) : Inv (tick Config.board.toConfig s) := by
  obtain ⟨hclaimed, heq⟩ | ⟨hclaimed, hholder, heq⟩ | ⟨hclaimed, hholder, heq⟩ := tick_cases Config.board.toConfig s <;>
    rw [heq]
  · exact { h with
      ccr_written := fun ch => by rw [writeDuty_ccr_get]; exact hclaimed.symm
      ccr_bounded := fun ch _ => writeDuty_ccr_bounded _ s ch }
  · exact { h with
      claimed_empties := fun _ => rfl
      ccr_written := fun ch => by rw [writeDuty_ccr_get]; rfl
      ccr_bounded := fun ch _ => writeDuty_ccr_bounded _ s.takeHandle ch
      halted_cause := fun hhalted => by
        obtain ⟨-, -, hempty⟩ := h.halted_cause hhalted
        exact absurd (hholder.symm.trans hempty) Bool.noConfusion }
  · exact { h with
      running_code := fun hrunning => absurd hrunning Bool.noConfusion
      halted_cause := fun _ => ⟨rfl, hclaimed, hholder⟩ }

theorem effectOf_keeps_inv (i : Instr) {s : State} (h : Inv s) : Inv (effectOf i s) := by
  cases i with
  | rxb b => exact receiveByte_keeps_inv b h
  | rxnone => exact h
  | rxerr => exact h
  | take => exact h.clearReady.respond _
  | seti roll pitch yaw throttle => exact h.setIntent _
  | geti => exact h.respond _
  | tick => exact tick_keeps_inv h

theorem step_keeps_inv {s t : State} (h : Inv s) (hstep : step s = .next t) : Inv t := by
  obtain ⟨-, rfl⟩ | ⟨w, rest, i, -, -, -, rfl⟩ := step_eq_next hstep
  · exact h
  · exact effectOf_keeps_inv i (h.setPending rest)

theorem reset_inv : Inv State.reset where
  partial_marker hne := absurd rfl hne
  partial_data k _ hlt := absurd hlt (Fin.not_lt_zero k)
  slot_frame hready := absurd hready Bool.noConfusion
  claimed_empties hclaimed := absurd hclaimed Bool.noConfusion
  ccr_written ch := congrArg DutyReg.written (perChannel_get _ ch)
  ccr_bounded ch hwritten :=
    absurd ((congrArg DutyReg.written (perChannel_get _ ch)).symm.trans hwritten) Bool.noConfusion
  running_code _ := rfl
  halted_cause hhalted := absurd hhalted Bool.noConfusion

end Sys2Proof.Machine
end

section
/-! SUPPORT. The handle, once claimed, stays claimed (43_duty.md R180). -/

namespace Sys2Proof.Machine

/-- A TICK claims, keeps the claim, or fail-stops (43_duty.md R171). -/
theorem tick_claimed_of_canClaim (c : Config) {s : State} (h : canClaim s) : (tick c s).claimed = true := by
  obtain ⟨hclaimed, heq⟩ | ⟨-, -, heq⟩ | ⟨hclaimed, hholder, -⟩ := tick_cases c s
  · rw [heq]; exact hclaimed
  · rw [heq]; rfl
  · simp [canClaim, hclaimed, hholder] at h

/-- The fail-stop in full: nothing but the fault state is written (60_exceptions.md R203). -/
theorem tick_failStop (c : Config) {s : State} (h : ¬ canClaim s) :
    tick c s = { s with halted := true, faultCode := 1 } := by
  obtain ⟨hclaimed, -⟩ | ⟨-, hholder, -⟩ | ⟨-, -, heq⟩ := tick_cases c s
  · exact absurd (.inl hclaimed) h
  · exact absurd (.inr hholder) h
  · exact heq

/-- A TICK after which the block runs could claim. -/
theorem canClaim_of_tick_running {c : Config} {s : State} (h : (tick c s).halted = false) : canClaim s := by
  by_contra hno
  rw [tick_failStop c hno] at h
  cases h

theorem effectOf_keeps_claimed (i : Instr) {s : State} (h : s.claimed = true) : (effectOf i s).claimed = true := by
  cases hi : i.agent with
  | rx => rw [effectOf_rx_frame hi s]; exact h
  | host => rw [effectOf_host_frame hi s]; exact h
  | tmr =>
    obtain rfl := eq_tick_of_agent_tmr hi
    exact tick_claimed_of_canClaim _ (.inl h)

theorem step_keeps_claimed {s t : State} (h : s.claimed = true) (hstep : step s = .next t) : t.claimed = true := by
  obtain ⟨-, rfl⟩ | ⟨w, rest, i, -, -, -, rfl⟩ := step_eq_next hstep
  · exact h
  · exact effectOf_keeps_claimed i h

/-- Under the invariant a block with a claimed handle has an empty holder and no fault. -/
theorem Inv.of_claimed {s : State} (h : Inv s) (hclaimed : s.claimed = true) :
    s.holderFull = false ∧ s.halted = false ∧ s.faultCode = 0 := by
  have hrunning : s.halted = false := Bool.eq_false_iff.mpr fun hhalted => by
    obtain ⟨-, hunclaimed, -⟩ := h.halted_cause hhalted
    exact absurd (hclaimed.symm.trans hunclaimed) Bool.noConfusion
  exact ⟨h.claimed_empties hclaimed, hrunning, h.running_code hrunning⟩

end Sys2Proof.Machine
end

section
/-! PROOFS. The statements about the invariant and the claimed handle (40_receiver.md R108; 43_duty.md R180). -/

namespace Sys2Proof.Machine

/-- Settles O41, field by field. -/
theorem invariantHoldsAtReset : Obligations.InvariantHoldsAtReset := reset_inv

/-- Settles O42: a step is idle or the effect of one event, and every effect keeps the invariant. -/
theorem everyStepKeepsTheInvariant : Obligations.EveryStepKeepsTheInvariant := fun _ _ => step_keeps_inv

/-- Settles O32: the invariant and the claim hold along the run together, and together they exclude the fail-stop. -/
theorem claimedHandleStaysClaimed : Obligations.ClaimedHandleStaysClaimed := by
  refine ⟨fun s t hinv h hrunning => ?_, fun n s t hinv hclaimed h => ?_⟩
  · obtain ⟨-, rfl⟩ := exec_eq_next h
    have hclaimed := tick_claimed_of_canClaim Config.board.toConfig (canClaim_of_tick_running hrunning)
    exact ⟨hclaimed, ((tick_keeps_inv hinv).of_claimed hclaimed).1⟩
  · obtain ⟨hinv', hclaimed'⟩ : Inv t ∧ t.claimed = true :=
      run_induction (P := fun u => Inv u ∧ u.claimed = true)
        (fun u v ⟨hu, hu'⟩ hstep => ⟨step_keeps_inv hu hstep, step_keeps_claimed hu' hstep⟩) ⟨hinv, hclaimed⟩ h
    exact ⟨hclaimed', hinv'.of_claimed hclaimed'⟩

end Sys2Proof.Machine
end

section
/-! SUPPORT. The tail of the byte history that the framer is in the middle of, and how a received byte changes it
(40_receiver.md R108, R109). Histories are kept newest first, as in `completedFrame`. -/

namespace Sys2Proof.Machine

/-- The newest bytes of `history` are the data bytes `data`, too few for a frame, and the marker before them. -/
structure PartialTail (history data : List Byte) : Prop where
  ends : ∃ before, history = data ++ marker :: before
  all_data : ∀ d ∈ data, d ≠ marker
  short : data.length ≤ 4

theorem not_partialTail_nil (data : List Byte) : ¬ PartialTail [] data := by
  rintro ⟨⟨before, h⟩, -, -⟩
  simp at h

/-- A marker begins a new partial frame, whatever came before. -/
theorem partialTail_cons_marker {history data : List Byte} : PartialTail (marker :: history) data ↔ data = [] := by
  refine ⟨fun ⟨⟨before, h⟩, hdata, _⟩ => ?_, ?_⟩
  · cases data with
    | nil => rfl
    | cons d older =>
      have hd : marker = d := (List.cons.inj h).1
      exact absurd hd.symm (hdata d List.mem_cons_self)
  · rintro rfl
    exact ⟨⟨history, rfl⟩, by simp, by simp⟩

/-- A data byte prolongs the partial frame. -/
theorem partialTail_cons_data {history data : List Byte} {b : Byte} (hb : b ≠ marker) :
    PartialTail (b :: history) data ↔ ∃ older, data = b :: older ∧ older.length ≤ 3 ∧ PartialTail history older := by
  constructor
  · rintro ⟨⟨before, h⟩, hdata, hshort⟩
    cases data with
    | nil => exact absurd (List.cons.inj h).1 hb
    | cons d older =>
      obtain ⟨rfl, holder⟩ := List.cons.inj h
      have hlength : older.length ≤ 3 := Nat.le_of_succ_le_succ hshort
      exact ⟨older, rfl, hlength, ⟨before, holder⟩, fun e he => hdata e (List.mem_cons_of_mem b he), by omega⟩
  · rintro ⟨older, rfl, hlength, ⟨before, rfl⟩, hdata, -⟩
    exact ⟨⟨before, rfl⟩, List.forall_mem_cons.mpr ⟨hb, hdata⟩, Nat.succ_le_succ hlength⟩

/-- A completed frame is a full partial frame and one data byte more. -/
theorem completedFrame_eq_some_iff {history : List Byte} {f : Frame} :
    completedFrame history = some f ↔
      ∃ (before : List Byte) (d1 d2 d3 d4 d5 : Byte), history = d5 :: d4 :: d3 :: d2 :: d1 :: marker :: before ∧
        (d1 ≠ marker ∧ d2 ≠ marker ∧ d3 ≠ marker ∧ d4 ≠ marker ∧ d5 ≠ marker) ∧ f = #v[marker, d1, d2, d3, d4, d5] := by
  constructor
  · intro h
    unfold completedFrame at h
    split at h
    case h_1 d5 d4 d3 d2 d1 d0 before =>
      split at h
      case isTrue hframe =>
        obtain ⟨rfl, hdata⟩ := hframe
        exact ⟨before, d1, d2, d3, d4, d5, rfl, hdata, (Option.some.inj h).symm⟩
      case isFalse => cases h
    case h_2 => cases h
  · rintro ⟨before, d1, d2, d3, d4, d5, rfl, hdata, rfl⟩
    exact if_pos ⟨rfl, hdata⟩

/-- A completed frame is a frame of the link (40_receiver.md R110). -/
theorem linkFrame_of_completedFrame {history : List Byte} {f : Frame} (h : completedFrame history = some f) :
    LinkFrame f := by
  obtain ⟨before, d1, d2, d3, d4, d5, -, ⟨h1, h2, h3, h4, h5⟩, rfl⟩ := completedFrame_eq_some_iff.mp h
  refine ⟨rfl, fun k hk => ?_⟩
  match k with
  | 0 => exact absurd rfl hk
  | 1 => exact h1
  | 2 => exact h2
  | 3 => exact h3
  | 4 => exact h4
  | 5 => exact h5

end Sys2Proof.Machine
end

section
/-! SUPPORT. The framer against the history: its partial frame is the history's tail, and the frame it hands over is the
one the history completes (40_receiver.md R108, R109). -/

namespace Sys2Proof.Machine

/-- Where the history has a partial tail, `cursor` counts it and `buf` holds it, oldest byte first. -/
def HoldsTail (history : List Byte) (s : State) : Prop :=
  ∀ data, PartialTail history data →
    s.cursor.val = data.length + 1 ∧ s.buf.toList.take (data.length + 1) = marker :: data.reverse

/-- A partial frame in the buffer is a tail of the history. -/
def BufferFromTail (history : List Byte) (s : State) : Prop := s.cursor ≠ 0 → ∃ data, PartialTail history data

theorem holdsTail_nil (s : State) : HoldsTail [] s := fun data htail => absurd htail (not_partialTail_nil data)

/-- What a buffer holds up to and with a byte just stored. -/
theorem take_set_toList (buf : Frame) (b : Byte) {c : Nat} (hc : c < 6) :
    (buf.set c b).toList.take (c + 1) = buf.toList.take c ++ [b] := by
  have hlength : c < (buf.toList.set c b).length := by simpa using hc
  rw [Vector.toList_set, List.take_succ_eq_append_getElem hlength, List.getElem_set_self, List.take_set,
    List.set_eq_of_length_le (by simp)]

theorem receiveByte_holdsTail {history : List Byte} {s : State} (h : HoldsTail history s) (b : Byte) :
    HoldsTail (b :: history) (receiveByte b s) := by
  intro data htail
  by_cases hb : b = marker
  · subst hb
    obtain rfl := partialTail_cons_marker.mp htail
    rw [receiveByte_marker]
    exact ⟨rfl, take_set_toList s.buf marker (c := 0) (by decide)⟩
  · obtain ⟨older, rfl, hlength, holder⟩ := (partialTail_cons_data hb).mp htail
    obtain ⟨hcursor, hbuf⟩ := h older holder
    have hc : s.cursor ≠ 0 := fun h0 => by simp [h0] at hcursor
    have hroom : s.cursor.val + 1 < 6 := by omega
    rw [receiveByte_advance hc hb hroom]
    have hlonger : (b :: older).length = s.cursor.val := hcursor.symm
    refine ⟨congrArg (· + 1) hcursor, ?_⟩
    calc (s.buf.set s.cursor b).toList.take ((b :: older).length + 1)
      _ = (s.buf.set s.cursor b).toList.take (s.cursor.val + 1) := by rw [hlonger]
      _ = s.buf.toList.take s.cursor.val ++ [b] := take_set_toList s.buf b s.cursor.isLt
      _ = marker :: (b :: older).reverse := by rw [hcursor, hbuf, List.reverse_cons, List.cons_append]

theorem receiveByte_bufferFromTail {history : List Byte} {s : State} (hholds : HoldsTail history s)
    (h : BufferFromTail history s) (b : Byte) : BufferFromTail (b :: history) (receiveByte b s) := by
  intro hcursor
  obtain ⟨hc, -, heq⟩ | ⟨rfl, -⟩ | ⟨hroom, hc, hb, -⟩ | ⟨-, -, heq⟩ := receiveByte_cases b s
  · rw [heq] at hcursor; exact absurd hc hcursor
  · exact ⟨[], partialTail_cons_marker.mpr rfl⟩
  · obtain ⟨data, htail⟩ := h hc
    obtain ⟨hcount, -⟩ := hholds data htail
    exact ⟨b :: data, (partialTail_cons_data hb).mpr ⟨data, rfl, by omega, htail⟩⟩
  · rw [heq] at hcursor; exact absurd rfl hcursor

/-- A frame the history completes is handed over: `buf` holds its first five bytes (40_receiver.md R109). -/
theorem handedOver_of_completedFrame {history : List Byte} {s : State} (h : HoldsTail history s) {b : Byte} {f : Frame}
    (hf : completedFrame (b :: history) = some f) : handedOver (.rxb b) s = some f := by
  obtain ⟨before, d1, d2, d3, d4, d5, hhistory, ⟨h1, h2, h3, h4, h5⟩, rfl⟩ := completedFrame_eq_some_iff.mp hf
  obtain ⟨rfl, rfl⟩ := List.cons.inj hhistory
  obtain ⟨hcursor, hbuf⟩ := h [d4, d3, d2, d1] ⟨⟨before, rfl⟩, by simp [h1, h2, h3, h4], le_rfl⟩
  have hset : s.buf.set 5 b = #v[marker, d1, d2, d3, d4, b] := by
    apply Vector.toList_inj.mp
    calc (s.buf.set 5 b).toList
      _ = (s.buf.set 5 b).toList.take 6 := (List.take_of_length_le (by simp)).symm
      _ = s.buf.toList.take 5 ++ [b] := take_set_toList s.buf b (by decide)
      _ = [marker, d1, d2, d3, d4, b] := by rw [show s.buf.toList.take 5 = [marker, d1, d2, d3, d4] from hbuf]; rfl
  rw [← hset]
  exact if_pos ⟨Fin.ext hcursor, h5⟩

/-- An RXB hands over exactly the frame that the history completes (40_receiver.md R109). -/
theorem handedOver_eq_completedFrame {history : List Byte} {s : State} (hholds : HoldsTail history s)
    (hfrom : BufferFromTail history s) (b : Byte) : handedOver (.rxb b) s = completedFrame (b :: history) := by
  cases hf : completedFrame (b :: history) with
  | some f => exact handedOver_of_completedFrame hholds hf
  | none =>
    refine if_neg fun ⟨hc, hb⟩ => ?_
    obtain ⟨data, htail⟩ := hfrom (by simp [hc])
    obtain ⟨hcount, -⟩ := hholds data htail
    have hlength : data.length = 4 := by simp only [hc] at hcount; omega
    obtain ⟨⟨before, rfl⟩, hdata, -⟩ := htail
    match data, hlength, hdata, hf with
    | [d4, d3, d2, d1], _, hdata, hf =>
      have hcomplete : completedFrame (b :: d4 :: d3 :: d2 :: d1 :: marker :: before) =
          some #v[marker, d1, d2, d3, d4, b] := if_pos ⟨rfl, by simpa [hb, and_comm, and_assoc] using hdata⟩
      exact absurd (hf.symm.trans hcomplete) (by simp)

end Sys2Proof.Machine
end

section
/-! SUPPORT. The history along a run of events (40_receiver.md R108). -/

namespace Sys2Proof.Machine

/-- The history, newest first, after one more event. -/
def pushReceived (i : Instr) (history : List Byte) : List Byte := (receivedByte i).toList ++ history

theorem pushReceived_of_none {i : Instr} (hi : receivedByte i = none) (history : List Byte) :
    pushReceived i history = history := by
  rw [pushReceived, hi]
  rfl

/-- The byte of an event comes before those of the later ones. -/
theorem receivedBytes_cons_reverse (i : Instr) (es : List Instr) (history : List Byte) :
    (receivedBytes (i :: es)).reverse ++ history = (receivedBytes es).reverse ++ pushReceived i history := by
  rw [receivedBytes, receivedBytes, pushReceived]
  cases hi : receivedByte i with
  | none => rw [List.filterMap_cons_none hi]; rfl
  | some b => rw [List.filterMap_cons_some hi, List.reverse_cons, List.append_assoc]; rfl

/-- An event that delivers a byte is that byte's RXB. -/
theorem eq_rxb_of_receivedByte {i : Instr} {b : Byte} (hi : receivedByte i = some b) : i = .rxb b := by
  cases i with
  | rxb d => rw [Option.some.inj hi]
  | _ => cases hi

theorem effectOf_holdsTail (i : Instr) {history : List Byte} {s : State} (h : HoldsTail history s) :
    HoldsTail (pushReceived i history) (effectOf i s) := by
  cases hi : receivedByte i with
  | none =>
    obtain ⟨hcursor, hbuf⟩ := effectOf_keeps_partial_frame hi s
    rw [pushReceived_of_none hi, HoldsTail, hcursor, hbuf]
    exact h
  | some b =>
    obtain rfl := eq_rxb_of_receivedByte hi
    exact receiveByte_holdsTail h b

theorem effectOf_bufferFromTail (i : Instr) {history : List Byte} {s : State} (hholds : HoldsTail history s)
    (h : BufferFromTail history s) : BufferFromTail (pushReceived i history) (effectOf i s) := by
  cases hi : receivedByte i with
  | none =>
    obtain ⟨hcursor, -⟩ := effectOf_keeps_partial_frame hi s
    rw [pushReceived_of_none hi, BufferFromTail, hcursor]
    exact h
  | some b =>
    obtain rfl := eq_rxb_of_receivedByte hi
    exact receiveByte_bufferFromTail hholds h b

/-- What every event keeps, its byte added to the history, holds after a run for the bytes of the run. -/
theorem perform_history_induction {motive : List Byte → State → Prop}
    (keep : ∀ i history s, motive history s → motive (pushReceived i history) (effectOf i s)) {es : List Instr}
    {history : List Byte} {s t : State} (hs : motive history s) (h : perform es s = .next t) :
    motive ((receivedBytes es).reverse ++ history) t := by
  induction es generalizing history s with
  | nil => exact Host.Outcome.next.inj h ▸ hs
  | cons i es ih =>
    rw [receivedBytes_cons_reverse]
    exact ih (keep i history s hs) (perform_cons_eq_next h).2

/-- From any state, a partial frame received in the run is in the buffer. -/
theorem perform_holdsTail {es : List Instr} {s t : State} (h : perform es s = .next t) :
    HoldsTail (receivedBytes es).reverse t := by
  have htail := perform_history_induction (motive := HoldsTail) (fun i _ _ => effectOf_holdsTail i) (holdsTail_nil s) h
  rwa [List.append_nil] at htail

/-- The framer follows the history: it holds the history's tail and nothing else. -/
def FollowsHistory (history : List Byte) (s : State) : Prop := HoldsTail history s ∧ BufferFromTail history s

theorem followsHistory_nil {s : State} (hs : s.cursor = 0) : FollowsHistory [] s :=
  ⟨holdsTail_nil s, fun hne => absurd hs hne⟩

theorem effectOf_followsHistory (i : Instr) {history : List Byte} {s : State} (h : FollowsHistory history s) :
    FollowsHistory (pushReceived i history) (effectOf i s) := by
  obtain ⟨hholds, hfrom⟩ := h
  exact ⟨effectOf_holdsTail i hholds, effectOf_bufferFromTail i hholds hfrom⟩

/-- From a state with no partial frame, the framer follows the bytes of the run. -/
theorem perform_followsHistory {es : List Instr} {s t : State} (hs : s.cursor = 0) (h : perform es s = .next t) :
    FollowsHistory (receivedBytes es).reverse t := by
  have hfollows := perform_history_induction (motive := FollowsHistory) (fun i _ _ => effectOf_followsHistory i)
    (followsHistory_nil hs) h
  rwa [List.append_nil] at hfollows

/-- The frame an RXB hands over is the one its byte completes. -/
theorem FollowsHistory.handedOver {history : List Byte} {s : State} (h : FollowsHistory history s) (b : Byte) :
    handedOver (.rxb b) s = completedFrame (b :: history) := by
  obtain ⟨hholds, hfrom⟩ := h
  exact handedOver_eq_completedFrame hholds hfrom b

theorem handedOver_of_receivedByte_none {i : Instr} (hi : receivedByte i = none) (s : State) :
    handedOver i s = none := by
  cases i with
  | rxb b => cases hi
  | _ => rfl

theorem linkFrame_of_handedOver {i : Instr} {history : List Byte} {s : State} (h : FollowsHistory history s)
    {f : Frame} (hf : handedOver i s = some f) : LinkFrame f := by
  cases hi : receivedByte i with
  | none => rw [handedOver_of_receivedByte_none hi] at hf; cases hf
  | some b =>
    obtain rfl := eq_rxb_of_receivedByte hi
    exact linkFrame_of_completedFrame (h.handedOver b ▸ hf)

end Sys2Proof.Machine
end

section
/-! SUPPORT. The frames handed over along a run, and the mailbox they go to (41_handoff.md R130 to R133). -/

namespace Sys2Proof.Machine

theorem handedOverIn_cons_running {s : State} (hs : s.halted = false) (i : Instr) (es : List Instr) :
    handedOverIn (i :: es) s = (handedOver i s).toList ++ handedOverIn es (effectOf i s) := by
  rw [handedOverIn, exec_running hs]

theorem handedOverIn_cons_halted {s : State} (hs : s.halted = true) (i : Instr) (es : List Instr) :
    handedOverIn (i :: es) s = [] := by
  rw [handedOverIn, exec_halted hs]

theorem linkFrame_of_mem_handedOverIn {es : List Instr} {history : List Byte} {s : State}
    (h : FollowsHistory history s) {f : Frame} (hf : f ∈ handedOverIn es s) : LinkFrame f := by
  induction es generalizing history s with
  | nil => exact absurd hf List.not_mem_nil
  | cons i es ih =>
    cases hs : s.halted
    · rw [handedOverIn_cons_running hs, List.mem_append, Option.mem_toList] at hf
      obtain hfirst | hlater := hf
      · exact linkFrame_of_handedOver h hfirst
      · exact ih (effectOf_followsHistory i h) hlater
    · rw [handedOverIn_cons_halted hs] at hf
      exact absurd hf List.not_mem_nil

/-- The mailbox has an unread frame when `ready` is set, and it is the slot's (41_handoff.md R132). -/
theorem pendingFrame_eq_some_iff {s : State} {f : Frame} :
    s.pendingFrame = some f ↔ s.ready = true ∧ s.slot = f := by
  rw [State.pendingFrame]
  split_ifs with hready
  · simp [hready]
  · simp [hready]

theorem pendingFrame_of_not_ready {s : State} (h : s.ready = false) : s.pendingFrame = none := by
  rw [State.pendingFrame, if_neg (by simp [h])]

/-- What a received byte does to the mailbox: a frame handed over goes there, and nothing else does (40_receiver.md
R101; 41_handoff.md R130). -/
theorem receiveByte_mailbox (b : Byte) (s : State) :
    (∃ f, handedOver (.rxb b) s = some f ∧ (receiveByte b s).slot = f ∧ (receiveByte b s).ready = true ∧
      (receiveByte b s).cursor = 0) ∨
    (handedOver (.rxb b) s = none ∧ (receiveByte b s).slot = s.slot ∧ (receiveByte b s).ready = s.ready) := by
  obtain ⟨hc, hb, heq⟩ | ⟨hb, heq⟩ | ⟨hroom, hc, hb, heq⟩ | ⟨hc, hb, heq⟩ := receiveByte_cases b s <;> rw [heq]
  · exact .inr ⟨if_neg fun h => by simp [hc] at h, rfl, rfl⟩
  · exact .inr ⟨if_neg fun h => h.2 hb, rfl, rfl⟩
  · exact .inr ⟨if_neg fun h => by simp [h.1] at hroom, rfl, rfl⟩
  · exact .inl ⟨_, if_pos ⟨hc, hb⟩, rfl, rfl, rfl⟩

/-- A frame handed over replaces the mailbox's; without one, no event but TAKE touches the mailbox (41_handoff.md R131,
R132). -/
theorem effectOf_pendingFrame {i : Instr} (hi : i ≠ .take) (s : State) :
    (effectOf i s).pendingFrame = (handedOver i s).or s.pendingFrame := by
  cases i with
  | rxb b =>
    obtain ⟨f, hover, hslot, hready, -⟩ | ⟨hover, hslot, hready⟩ := receiveByte_mailbox b s
    · rw [hover, Option.some_or]; exact pendingFrame_eq_some_iff.mpr ⟨hready, hslot⟩
    · rw [hover, Option.none_or, State.pendingFrame, effectOf, hslot, hready]; rfl
  | rxnone => rfl
  | rxerr => rfl
  | take => exact absurd rfl hi
  | seti roll pitch yaw throttle => rfl
  | geti => rfl
  | tick => rw [effectOf_tmr_frame rfl s]; rfl

/-- A frame waits in the mailbox until it is taken or another is handed over (41_handoff.md R133; 20_memory.md R62). -/
theorem perform_keeps_pendingFrame {es : List Instr} {s t : State} (h : perform es s = .next t)
    (hover : handedOverIn es s = []) (htake : Instr.take ∉ es) : t.pendingFrame = s.pendingFrame := by
  induction es generalizing s with
  | nil => rw [Host.Outcome.next.inj h]
  | cons i es ih =>
    obtain ⟨hs, hrun⟩ := perform_cons_eq_next h
    rw [handedOverIn_cons_running hs, List.append_eq_nil_iff, Option.toList_eq_nil_iff] at hover
    obtain ⟨hfirst, hlater⟩ := hover
    obtain ⟨hi, hes⟩ := not_or.mp (List.mem_cons.not.mp htake)
    calc t.pendingFrame
      _ = (effectOf i s).pendingFrame := ih hrun hlater hes
      _ = s.pendingFrame := by rw [effectOf_pendingFrame (Ne.symm hi), hfirst, Option.none_or]

/-- A TAKE of an unread frame answers it and clears `ready` (41_handoff.md R132). -/
theorem exec_take_of_pendingFrame {s : State} (hs : s.halted = false) {f : Frame} (hf : s.pendingFrame = some f) :
    exec .take s = .next { s with ready := false, outputs := s.outputs ++ [.take (takeWord (some f))] } := by
  obtain ⟨hready, rfl⟩ := pendingFrame_eq_some_iff.mp hf
  rw [exec_running hs, effectOf, takeFrame_unread hready]

end Sys2Proof.Machine
end

section
/-! SUPPORT. The TAKE answers of an event and of a run (41_handoff.md R133; log 2). -/

namespace Sys2Proof.Machine

@[simp] theorem takeResponses_append (os os' : List Output) :
    takeResponses (os ++ os') = takeResponses os ++ takeResponses os' := List.filterMap_append

theorem tick_takeResponses (c : Config) (s : State) : takeResponses (tick c s).outputs = takeResponses s.outputs := by
  obtain ⟨-, heq⟩ | ⟨-, -, heq⟩ | ⟨-, -, heq⟩ := tick_cases c s <;> rw [heq]
  · exact (takeResponses_append _ _).trans (List.append_nil _)
  · exact (takeResponses_append _ _).trans (List.append_nil _)
  · rfl

/-- No event but TAKE gives a TAKE response. -/
theorem effectOf_takeResponses {i : Instr} (hi : i ≠ .take) (s : State) :
    takeResponses (effectOf i s).outputs = takeResponses s.outputs := by
  cases i with
  | rxb b => rw [effectOf_rx_frame rfl s]; rfl
  | rxnone => rfl
  | rxerr => rfl
  | take => exact absurd rfl hi
  | seti roll pitch yaw throttle => rfl
  | geti => exact (takeResponses_append _ _).trans (List.append_nil _)
  | tick => exact tick_takeResponses _ s

/-- A TAKE answers what the mailbox holds and empties it (41_handoff.md R132). -/
theorem effectOf_take_mailbox (s : State) :
    takeResponses (effectOf .take s).outputs = takeResponses s.outputs ++ [takeWord s.pendingFrame] ∧
    (effectOf .take s).pendingFrame = none :=
  ⟨takeResponses_append _ _, pendingFrame_of_not_ready (takeFrame_ready s)⟩

/-- An event that delivers no byte and takes nothing is not seen by the reference mailbox. -/
theorem expectedTakes_cons_other {i : Instr} (hi : receivedByte i = none) (htake : i ≠ .take) (es : List Instr)
    (history : List Byte) (mailbox : Option Frame) :
    expectedTakes (i :: es) history mailbox = expectedTakes es history mailbox := by
  cases i with
  | rxb b => cases hi
  | take => exact absurd rfl htake
  | _ => rfl

/-- A run answers what the reference mailbox answers, from a state whose framer follows the history and whose mailbox is
the reference's. -/
theorem perform_takeResponses {es : List Instr} {history : List Byte} {s t : State} (hfollows : FollowsHistory history s)
    (h : perform es s = .next t) :
    takeResponses t.outputs =
      takeResponses s.outputs ++ (expectedTakes es history s.pendingFrame).map takeWord := by
  induction es generalizing history s with
  | nil => rw [Host.Outcome.next.inj h]; exact (List.append_nil _).symm
  | cons i es ih =>
    have hlater := ih (effectOf_followsHistory i hfollows) (perform_cons_eq_next h).2
    by_cases htake : i = .take
    · subst htake
      obtain ⟨hanswer, hempty⟩ := effectOf_take_mailbox s
      rw [hlater, hanswer, hempty, List.append_assoc]
      rfl
    · rw [hlater, effectOf_takeResponses htake, effectOf_pendingFrame htake]
      cases hi : receivedByte i with
      | none =>
        rw [expectedTakes_cons_other hi htake, pushReceived_of_none hi, handedOver_of_receivedByte_none hi,
          Option.none_or]
      | some b =>
        obtain rfl := eq_rxb_of_receivedByte hi
        rw [hfollows.handedOver b]
        rfl

end Sys2Proof.Machine
end

section
/-! PROOFS. The statements about frames and the mailbox along a run (40_receiver.md R108, R109; 41_handoff.md R133). -/

namespace Sys2Proof.Machine

/-- Settles O19: the framer follows the bytes of the run, whose tail is the data bytes since the last marker. -/
theorem bufferHoldsBytesSinceMarker : Obligations.BufferHoldsBytesSinceMarker := by
  intro es s t hs h
  obtain ⟨hholds, hfrom⟩ := perform_followsHistory hs h
  refine ⟨Nat.le_of_lt_succ t.cursor.isLt, fun hc => ?_, fun f hf =>
    linkFrame_of_mem_handedOverIn (followsHistory_nil hs) hf⟩
  obtain ⟨data, htail⟩ := hfrom hc
  obtain ⟨hcount, hbuf⟩ := hholds data htail
  obtain ⟨⟨before, hhistory⟩, hdata, -⟩ := htail
  refine ⟨before.reverse, data.reverse, ?_, ?_, fun d hd => hdata d (List.mem_reverse.mp hd), ?_⟩
  · rw [List.reverse_eq_iff.mp hhistory]
    simp
  · rw [List.length_reverse, hcount]
  · rw [hcount, hbuf]

/-- Settles O20: the frame handed over is the one the bytes complete, and only a frame handed over reaches the mailbox. -/
theorem frameEmittedIffMarkerAndFiveData : Obligations.FrameEmittedIffMarkerAndFiveData := by
  intro es b s t u hs h hu
  obtain ⟨-, rfl⟩ := exec_eq_next hu
  have hover : handedOver (.rxb b) t = completedFrame (receivedBytes es ++ [b]).reverse := by
    rw [List.reverse_concat]
    exact (perform_followsHistory hs h).handedOver b
  refine ⟨fun before d1 d2 d3 d4 d5 hbytes h1 h2 h3 h4 h5 => ?_, fun hno => ?_⟩
  · have hframe : handedOver (.rxb b) t = some #v[0xAA, d1, d2, d3, d4, d5] := by
      rw [hover, hbytes]
      exact completedFrame_eq_some_iff.mpr
        ⟨before.reverse, d1, d2, d3, d4, d5, by simp [marker], ⟨h1, h2, h3, h4, h5⟩, rfl⟩
    obtain ⟨f, hf, hslot, hready, hcursor⟩ | ⟨hnone, -⟩ := receiveByte_mailbox b t
    · obtain rfl := Option.some.inj (hframe.symm.trans hf)
      exact ⟨hframe, hslot, hready, hcursor⟩
    · exact absurd (hframe.symm.trans hnone) (by simp)
  · obtain ⟨f, hf, -⟩ | hkept := receiveByte_mailbox b t
    · obtain ⟨before, d1, d2, d3, d4, d5, hhistory, hdata, -⟩ := completedFrame_eq_some_iff.mp (hover.symm.trans hf)
      refine absurd ⟨before.reverse, d1, d2, d3, d4, d5, ?_, hdata⟩ hno
      rw [List.reverse_eq_iff.mp hhistory]
      simp [marker]
    · exact hkept

/-- Settles O23: at the start the framer follows the empty history and the reference's mailbox is empty. -/
theorem takesMatchOnePlaceMailbox : Obligations.TakesMatchOnePlaceMailbox := by
  intro es s t hs hready h
  rw [perform_takeResponses (followsHistory_nil hs) h, pendingFrame_of_not_ready hready]

/-- Settles O24: the completing byte puts the frame in the mailbox, where it waits for the TAKE. -/
theorem firstTakeReturnsTheFrame : Obligations.FirstTakeReturnsTheFrame := by
  intro s t u b es hc hb ht hu hover htake hrunning
  obtain ⟨-, rfl⟩ := exec_eq_next ht
  have hframe : handedOver (.rxb b) s = some (s.buf.set 5 b) := if_pos ⟨hc, hb⟩
  have hwaits : u.pendingFrame = some (s.buf.set 5 b) := by
    rw [perform_keeps_pendingFrame hu hover htake, effectOf_pendingFrame (by simp), hframe, Option.some_or]
  exact exec_take_of_pendingFrame hrunning hwaits

end Sys2Proof.Machine
end

section
/-! SUPPORT. The host's poll, by what the TAKE answers (42_intent.md R154 to R156). -/

namespace Sys2Proof.Machine

@[simp] theorem pollReaction_none (chk : Checksum) : pollReaction chk (takeWord none) = none := by
  rw [pollReaction, frameOfTakeWord_takeWord]

/-- The host reacts to a frame as the validator says. -/
theorem pollReaction_some (chk : Checksum) (f : Frame) :
    pollReaction chk (takeWord (some f)) = if checkCrc chk f then some (intentOfFrame f) else none := by
  rw [pollReaction, frameOfTakeWord_takeWord]

theorem poll_without_reaction {chk : Checksum} {s : State} (hs : s.halted = false)
    (hr : pollReaction chk (takeWord s.pendingFrame) = none) : poll chk s = .next (takeFrame s) := by
  rw [poll, execTake, whenRunning_running hs]
  simp only [hr]

theorem poll_with_reaction {chk : Checksum} {s : State} {i : Intent} (hs : s.halted = false)
    (hr : pollReaction chk (takeWord s.pendingFrame) = some i) : poll chk s = .next ((takeFrame s).setIntent i) := by
  have htaken : (takeFrame s).halted = false := hs
  rw [poll, execTake, whenRunning_running hs]
  simp only [hr]
  exact exec_seti_running htaken i.roll i.pitch i.yaw i.throttle

/-- A poll that finds a frame whose checksum fails takes it and commits nothing (42_intent.md R156). -/
theorem poll_rejects {chk : Checksum} {s : State} {f : Frame} (hs : s.halted = false) (hf : s.pendingFrame = some f)
    (hcrc : checkCrc chk f = false) : poll chk s = .next (takeFrame s) := by
  refine poll_without_reaction hs ?_
  rw [hf, pollReaction_some, if_neg (by simp [hcrc])]

/-- A poll that finds a frame whose checksum holds takes it and commits its intent (42_intent.md R156). -/
theorem poll_commits {chk : Checksum} {s : State} {f : Frame} (hs : s.halted = false) (hf : s.pendingFrame = some f)
    (hcrc : checkCrc chk f = true) : poll chk s = .next ((takeFrame s).setIntent (intentOfFrame f)) := by
  refine poll_with_reaction hs ?_
  rw [hf, pollReaction_some, if_pos hcrc]

end Sys2Proof.Machine
end

section
/-! SUPPORT. The last SETI of a run, and what a TICK makes of the intent (42_intent.md R152; 43_duty.md R170). -/

namespace Sys2Proof.Machine

theorem effectOf_intent (i : Instr) (s : State) : (effectOf i s).intent = (committedIntent i).getD s.intent := by
  cases hi : committedIntent i with
  | none => exact effectOf_keeps_intent hi s
  | some j =>
    cases i with
    | seti roll pitch yaw throttle => exact Option.some.inj hi
    | _ => cases hi

/-- The rest of a run starts from the intent its first event leaves. -/
theorem lastIntent_cons (i : Instr) (es : List Instr) (start : Intent) :
    lastIntent (i :: es) start = lastIntent es ((committedIntent i).getD start) := by
  rw [lastIntent, lastIntent]
  cases hi : committedIntent i with
  | none => rw [List.filterMap_cons_none hi]; rfl
  | some j => rw [List.filterMap_cons_some hi, List.getLast?_cons]; rfl

theorem perform_intent {es : List Instr} {s t : State} (h : perform es s = .next t) :
    t.intent = lastIntent es s.intent := by
  induction es generalizing s with
  | nil => rw [Host.Outcome.next.inj h]; rfl
  | cons i es ih => rw [ih (perform_cons_eq_next h).2, lastIntent_cons, effectOf_intent]

/-- A run without SETI keeps the intent (42_intent.md R152). -/
theorem perform_keeps_intent {es : List Instr} (hes : es.filterMap committedIntent = []) {s t : State}
    (h : perform es s = .next t) : t.intent = s.intent := by
  rw [perform_intent h, lastIntent, hes]
  rfl

/-- A TICK that can claim writes the duty values of the intent to every channel (43_duty.md R176). -/
theorem tick_ccr_get_of_canClaim (c : Config) {s : State} (h : canClaim s) (ch : Fin 4) :
    (tick c s).ccr[ch] = { value := (motorDuty c s.intent)[ch], written := true } := by
  rw [tick_ccr_of_canClaim c h, perChannel_get]

/-- A TICK that can claim answers the DUTY word of what it writes (30_encoding.md R77). -/
theorem tick_outputs_of_canClaim (c : Config) {s : State} (h : canClaim s) :
    (tick c s).outputs = s.outputs ++ [.duty (dutyWord (motorDuty c s.intent))] := by
  obtain ⟨-, heq⟩ | ⟨-, -, heq⟩ | ⟨hclaimed, hholder, -⟩ := tick_cases c s
  · rw [heq, writeDuty_eq]
  · rw [heq, writeDuty_eq]; rfl
  · simp [canClaim, hclaimed, hholder] at h

theorem tick_of_claimed (c : Config) {s : State} (h : s.claimed = true) : tick c s = writeDuty c s := if_pos h

theorem tick_of_holderFull (c : Config) {s : State} (hclaimed : s.claimed = false) (hholder : s.holderFull = true) :
    tick c s = writeDuty c s.takeHandle := by
  rw [tick, if_neg (by simp [hclaimed]), if_pos hholder]

theorem not_canClaim {s : State} (hclaimed : s.claimed = false) (hholder : s.holderFull = false) : ¬ canClaim s := by
  simp [canClaim, hclaimed, hholder]

/-- The duty registers written to one vector are observed as its DUTY word (10_state.md R29). -/
theorem observeDuty_of_ccr {s : State} {d : DutyVector}
    (h : ∀ ch : Fin 4, s.ccr[ch] = { value := d[ch], written := true }) : observeDuty s = .ok (dutyWord d) := by
  have hobserve : ∀ ch : Fin 4, observeCcr s ch = .ok d[ch] := fun ch => by
    rw [observeCcr_written (by rw [h ch]), h ch]
  rw [observeDuty, hobserve 0, hobserve 1, hobserve 2, hobserve 3]
  rfl

end Sys2Proof.Machine
end

section
/-! PROOFS. The statements about the intent, the TICK and the duty port (42_intent.md R152; 43_duty.md R170, R176;
10_state.md R29). -/

namespace Sys2Proof.Machine

/-- Settles O27: the run leaves the last SETI's value in the register that GETI and TICK read. -/
theorem readersSeeTheLastSeti : Obligations.ReadersSeeTheLastSeti := by
  refine ⟨rfl, fun es s t h => ?_⟩
  have hintent : t.intent = lastIntent es s.intent := perform_intent h
  rw [← hintent]
  exact ⟨rfl, fun hrunning => ⟨exec_geti_running hrunning, fun hclaim =>
    ⟨_, exec_running hrunning .tick, tick_ccr_get_of_canClaim _ hclaim⟩⟩⟩

/-- Settles O30: the three cases of the claim test. -/
theorem tickClaimsThenWritesEveryChannel : Obligations.TickClaimsThenWritesEveryChannel := by
  intro s hs
  have hexec : exec .tick s = .next (tick Config.board.toConfig s) := exec_running hs .tick
  refine ⟨fun hclaimed => ?_, fun hclaimed hholder => ?_, fun hclaimed hholder => ?_⟩
  · rw [hexec, tick_of_claimed _ hclaimed]; rfl
  · rw [hexec, tick_of_holderFull _ hclaimed hholder]; rfl
  · rw [hexec, tick_failStop _ (not_canClaim hclaimed hholder)]

/-- Settles O33: a TICK after which the block runs could claim, and it left one vector in all four registers. -/
theorem dutyPortObservableAfterTick : Obligations.DutyPortObservableAfterTick := by
  refine ⟨fun s ch => ⟨observeCcr_unwritten, observeCcr_written⟩, fun s t h hrunning => ?_⟩
  obtain ⟨-, rfl⟩ := exec_eq_next h
  have hclaim : canClaim s := canClaim_of_tick_running hrunning
  have hccr := tick_ccr_get_of_canClaim Config.board.toConfig hclaim
  refine ⟨fun ch => ⟨_, ?_, motorDuty_le_maxDuty Config.board.toConfig s.intent ch⟩,
    _, observeDuty_of_ccr hccr, tick_outputs_of_canClaim _ hclaim⟩
  rw [effectOf, observeCcr_written (by rw [hccr ch]), hccr ch]

end Sys2Proof.Machine
end

section
/-! PROOFS. The statements about the fail-stop and the order of the conditions (60_exceptions.md R203, R208, R210). -/

namespace Sys2Proof.Machine

/-- Settles O35: the fail-stop's state is halted, and there every event meets the step precondition. -/
theorem failStopHaltsEveryAgent : Obligations.FailStopHaltsEveryAgent := by
  intro s hs hclaimed hholder
  have hstop : exec .tick s = .next { s with halted := true, faultCode := 1 } := by
    rw [exec_running hs, effectOf, tick_failStop _ (not_canClaim hclaimed hholder)]
  refine ⟨_, hstop, rfl, fun i => exec_halted rfl i, fun i w rest hd => ?_⟩
  exact (step_event rfl hd).trans (exec_halted rfl i)

/-- Settles O36: the fault state is kept by every event but a TICK that cannot claim, whose effect is the fail-stop. -/
theorem refusalThenHaltThenClaim : Obligations.RefusalThenHaltThenClaim := by
  refine ⟨fun s w rest r => step_refuses, fun s i hs => exec_halted hs i, fun s t i h hchanged => ?_⟩
  obtain ⟨-, rfl⟩ := exec_eq_next h
  have hstops : ¬ (i ≠ .tick ∨ canClaim s) := fun hkeeps => hchanged (effectOf_keeps_fault_state hkeeps).1
  obtain ⟨hi, hclaim⟩ := not_or.mp hstops
  obtain rfl := not_not.mp hi
  rw [effectOf, tick_failStop _ hclaim]
  exact ⟨rfl, rfl, rfl, rfl, rfl⟩

/-- A halted block has no step but the idle one (60_exceptions.md R210; log 8). -/
theorem eq_self_of_step_halted {s t : State} (hs : s.halted = true) (h : step s = .next t) : t = s := by
  obtain ⟨-, rfl⟩ | ⟨w, rest, i, -, -, hrunning, -⟩ := step_eq_next h
  · rfl
  · exact absurd (hs.symm.trans hrunning) Bool.noConfusion

/-- Settles O38: being the halted state itself is kept by every step. -/
theorem haltedBlockNeverRunsAgain : Obligations.HaltedBlockNeverRunsAgain := by
  intro n s t hs h
  refine run_induction (P := fun u => u = s) ?_ rfl h
  rintro u v rfl hstep
  exact eq_self_of_step_halted hs hstep

end Sys2Proof.Machine
end

section
/-! PROOFS. The statements about reset, the configuration boundary and the pseudo-instructions (70_reset_and_hazards.md R230, R231;
43_duty.md R178; 30_encoding.md R83). -/

namespace Sys2Proof.Machine

/-- Settles O1: the values are those `State.resetWith` writes; a register's mark is clear, so its observation faults. -/
theorem resetGivesEveryElementItsValue : Obligations.ResetGivesEveryElementItsValue := by
  refine ⟨fun c bufAny slotAny ccrAny => ?_, _, _, _, rfl⟩
  have hccr : ∀ ch : Fin 4, (State.resetWith c bufAny slotAny ccrAny).ccr[ch] = { value := ccrAny[ch], written := false } :=
    perChannel_get _
  refine ⟨rfl, rfl, rfl, rfl, rfl, rfl, rfl, rfl, fun ch => ⟨?_, ?_, observeCcr_unwritten ?_⟩, rfl, rfl⟩
  all_goals rw [hccr ch]

/-- Settles O2: nothing but the port queues of the old state is left, and the new state runs. -/
theorem powerOnRestoresResetAndRuns : Obligations.PowerOnRestoresResetAndRuns := by
  intro s c bufAny slotAny ccrAny
  rw [State.powerOn_eq]
  exact ⟨rfl, rfl, rfl, fun i => ⟨_, exec_running rfl i⟩⟩

/-- Settles O43: the boundary refuses a zero period and admits every other. -/
theorem zeroPeriodIsRefusedAtTheBoundary : Obligations.ZeroPeriodIsRefusedAtTheBoundary := by
  intro c bufAny slotAny ccrAny
  refine ⟨fun hzero => ⟨?_, fun i s => ?_⟩, fun hperiod => ?_⟩
  · rw [bootUnder, acceptConfig_zero hzero]
  · rw [execUnder, acceptConfig_zero hzero]
  · have haccept : acceptConfig c = .ok { toConfig := c, period_ne_zero := hperiod } :=
      acceptConfig_legal { toConfig := c, period_ne_zero := hperiod }
    rw [bootUnder, haccept]
    exact ⟨_, rfl, rfl, rfl⟩

/-- Settles O44: the boundary admits the machine's configuration, and both dispatch to the same meanings. -/
theorem machineIsTheBlockUnderItsConfig : Obligations.MachineIsTheBlockUnderItsConfig := by
  intro i s
  rw [execUnder, acceptConfig_legal]
  cases i <;> rfl

theorem wellFormed_rxs {bs : List Nat} (hne : bs ≠ []) (hbs : ∀ b ∈ bs, b < 256) : (AsmLine.rxs bs).wellFormed = true := by
  simpa [AsmLine.wellFormed, fitsByte, hne] using hbs

/-- A byte sequence whose numbers fit is the RXB of each of its bytes (30_encoding.md R83). -/
theorem expandLine_rxs (chk : Option Checksum) {bs : List Nat} (hne : bs ≠ []) (hbs : ∀ b ∈ bs, b < 256) :
    expandLine chk (.rxs bs) = .ok (bs.map fun b => .rxb (BitVec.ofNat 8 b)) := by
  rw [expandLine, if_pos (wellFormed_rxs hne hbs), expandFitting, sendBytes, List.map_map]
  rfl

/-- A frame whose numbers fit is the RXB of the marker and of its five bytes (30_encoding.md R83). -/
theorem expandLine_sendframe (chk : Option Checksum) {r p y t c : Nat} (hr : r < 256) (hp : p < 256) (hy : y < 256)
    (ht : t < 256) (hc : c < 256) :
    expandLine chk (.sendframe r p y t c) =
      .ok (sendBytes [marker, byteOf r, byteOf p, byteOf y, byteOf t, byteOf c]) :=
  if_pos (by simp [AsmLine.wellFormed, fitsByte, hr, hp, hy, ht, hc])

theorem expandLine_sendframeChk (chk : Option Checksum) {r p y t : Nat} (hr : r < 256) (hp : p < 256) (hy : y < 256)
    (ht : t < 256) : expandLine chk (.sendframeChk r p y t) = expandFitting chk (.sendframeChk r p y t) :=
  if_pos (by simp [AsmLine.wellFormed, fitsByte, hr, hp, hy, ht])

/-- Settles O47: each pseudo-instruction's numbers fit, and its expansion is read off the definition; a checksum's value
is a byte, so its number stands for it again. -/
theorem pseudoInstructionsExpand : Obligations.PseudoInstructionsExpand := by
  refine ⟨fun chk bs => expandLine_rxs chk, fun chk f r p y t c hr hp hy ht hc => ⟨?_, ?_, ?_⟩⟩
  · rw [expandLine_sendframe chk hr hp hy ht hc, expandLine_rxs chk (by simp) (by simp [hr, hp, hy, ht, hc])]
    rfl
  · rw [expandLine_sendframeChk _ hr hp hy ht, expandLine_sendframe _ hr hp hy ht (BitVec.isLt _)]
    simp [expandFitting, byteOf, marker]
  · rw [expandLine_sendframeChk _ hr hp hy ht]
    rfl

end Sys2Proof.Machine
end

section
/-! PROOFS. The statements about the host's poll and the way of a frame to the duty registers (42_intent.md R154 to
R157). -/

namespace Sys2Proof.Machine

/-- Settles O45: the poll's TAKE answers the pending frame, and the validator decides on the SETI. -/
theorem pollCommitsOnlyCheckedFrames : Obligations.PollCommitsOnlyCheckedFrames := by
  intro s chk hs
  refine ⟨fun hready hcrc => ?_, fun hready hcrc => ?_, fun hready => ?_⟩
  · rw [poll_rejects hs (pendingFrame_eq_some_iff.mpr ⟨hready, rfl⟩) (beq_eq_false_iff_ne.mpr hcrc),
      takeFrame_unread hready]
  · rw [poll_commits hs (pendingFrame_eq_some_iff.mpr ⟨hready, rfl⟩) (beq_iff_eq.mpr hcrc), takeFrame_unread hready]
    rfl
  · have hnone : s.pendingFrame = none := pendingFrame_of_not_ready hready
    rw [poll_without_reaction hs (by rw [hnone, pollReaction_none]), takeFrame_none hready]
    rfl

/-- The six bytes of a frame, received in any run from any state, leave the frame in the mailbox (40_receiver.md R109). -/
theorem pendingFrame_of_received {es : List Instr} {s t : State} {d1 d2 d3 d4 d5 : Byte}
    (hdata : d1 ≠ marker ∧ d2 ≠ marker ∧ d3 ≠ marker ∧ d4 ≠ marker ∧ d5 ≠ marker)
    (hbytes : receivedBytes es = [marker, d1, d2, d3, d4]) (h : perform (es ++ [.rxb d5]) s = .next t) :
    t.pendingFrame = some #v[marker, d1, d2, d3, d4, d5] := by
  obtain ⟨u, hu, hlast⟩ := perform_append_eq_next h
  obtain ⟨-, hnext⟩ := perform_cons_eq_next hlast
  obtain rfl := Host.Outcome.next.inj hnext
  have hcomplete : completedFrame (d5 :: (receivedBytes es).reverse) = some #v[marker, d1, d2, d3, d4, d5] := by
    rw [hbytes]
    exact if_pos ⟨rfl, hdata⟩
  rw [effectOf_pendingFrame (by simp), handedOver_of_completedFrame (perform_holdsTail hu) hcomplete, Option.some_or]

/-- Settles O46: the frame reaches the mailbox, waits there for the poll, the poll commits its intent, and the intent
stays until the TICK. -/
theorem receivedFrameReachesTheDutyRegisters : Obligations.ReceivedFrameReachesTheDutyRegisters := by
  intro chk r p y th c es1 es2 s t u hr hp hy hth hchk hc hbytes ht hu hover htake hrunning
  have hwaits : u.pendingFrame = some #v[marker, r, p, y, th, c] := by
    rw [perform_keeps_pendingFrame hu hover htake]
    exact pendingFrame_of_received ⟨hr, hp, hy, hth, hc⟩ hbytes ht
  have hcrc : checkCrc chk #v[marker, r, p, y, th, c] = true := beq_iff_eq.mpr hchk.symm
  refine ⟨_, poll_commits hrunning hwaits hcrc, rfl, fun es3 w hes3 hw hwrunning hclaim => ?_⟩
  have hintent : w.intent = ⟨r, p, y, th⟩ := perform_keeps_intent hes3 hw
  refine ⟨_, exec_running hwrunning .tick, fun ch => ?_⟩
  rw [effectOf, tick_ccr_get_of_canClaim _ hclaim, motorDuty_get, hintent]

end Sys2Proof.Machine
end
